-- ==== Sys2Proof/Word.lean ====
section
/-! DEFINITION. The block's value widths (spec/00_scope.md R8, R9, R11). All values are unsigned. -/

namespace Sys2Proof

/-- A host register or bus data word: "the host data width is 32 bits" (R8). -/
abbrev Word := BitVec 32

/-- A buffer byte. -/
abbrev Byte := BitVec 8

/-- A symbol: "one byte value (0–255), the atomic unit of compression" (R9). -/
abbrev Sym := BitVec 8

/-- A node id: "a node id is 9 bits (0..510)" (R8). -/
abbrev NodeId := BitVec 9

end Sys2Proof
end

