-- ==== Sys2Proof/Config.lean ====
section
/-! DEFINITION. What an implementation fixes (spec/00_scope.md R8, spec/92_eei_decisions.md P1, P2) and the
free values: what the spec leaves unspecified and says a model draws "under no law". A free value has no body, so
no proof can rest on what it is. -/

namespace Sys2Proof

/-- The parameters of R8 and P1. They are arguments of the model: a machine's state carries them and no step
changes them (assumption 2). -/
structure Params where
  /-- `IBUF_SIZE`: input buffer size in bytes. -/
  ibufSize : Nat
  /-- `OBUF_SIZE`: output buffer size in bytes. -/
  obufSize : Nat
  /-- `BASE_ADDR`: where the platform places the block's 256 KiB space. No rule depends on it. -/
  baseAddr : Nat
  deriving DecidableEq, Repr

/-- "this hardware's default" (R8); the base address is the platform's, 0 here (assumption 2). -/
def Params.default : Params := { ibufSize := 65536, obufSize := 65536, baseAddr := 0 }

/-- The address in the surrounding system of the block's byte address `a` (R60, P1). -/
def Params.systemAddr (p : Params) (a : BitVec 18) : Nat := p.baseAddr + a.toNat

/-- The byte IBUF holds at index `i` from power-on until it is written (R50, U1). -/
opaque Config.powerOnIbuf : (i : Nat) → Byte

/-- The byte OBUF holds at index `i` since draw number `d`: draw 0 is the power-on contents (R50, U1), a later
draw is the contents a failed or abandoned ENCODE or DECODE leaves (R104, R233, U2, U3). -/
opaque Config.freeObuf : (d : Nat) → (i : Nat) → Byte

/-- The data a read returns that R239 leaves unspecified while BUSY = 1: "one draw per read" (U4). -/
opaque Config.freeReadData : (d : Nat) → Word

/-- CUR after a reset (R51: "unspecified, never read outside DECODE"). -/
opaque Config.freeCur : (d : Nat) → NodeId

/-- START after a reset (R51: "unspecified, never read outside DECODE"). -/
opaque Config.freeStart : (d : Nat) → Word

end Sys2Proof
end

