-- ==== Sys2Proof/Syntax.lean ====
section
/-! DEFINITION. The command set: one constructor per row of spec/opcode_table.json (spec/30_encoding.md R82),
and the host's bus accesses (spec/10_state.md R36, spec/30_encoding.md R90). -/

namespace Sys2Proof

/-- The bit format an ENCODE or DECODE names in FMT (R83). -/
inductive Fmt where
  /-- FMT = 0: eight code bits per byte, most significant bit first (R66). -/
  | packed
  /-- FMT = 1: one byte 0x30 or 0x31 per code bit (R67). -/
  | ascii
  deriving DecidableEq, Repr

/-- The nine commands (R82). The operand of ENCODE and DECODE is FMT (R83), of QUERY the symbol (R84); every
other operand is implicit in the opcode (R87). -/
inductive Instr where
  | nop
  | clear
  | count
  | build
  | encode (fmt : Fmt)
  | decode (fmt : Fmt)
  | travStart
  | travNext
  | query (sym : Sym)
  deriving DecidableEq, Repr

/-- One host bus access as the ports present it: (hb_we, hb_size, hb_addr, hb_wdata) (R36, R90). -/
structure BusAccess where
  we : Bool
  size : BitVec 2
  addr : BitVec 18
  wdata : Word
  deriving DecidableEq, Repr

/-- The four regions of the block's address space (R60). -/
inductive Region where
  | registers | ibufWindow | obufWindow | reserved
  deriving DecidableEq, Repr

end Sys2Proof
end

