-- ==== Sys2Proof/Decode.lean ====
section
/-! DEFINITION. The decoder, total on every 32-bit word and rejecting by name (spec/30_encoding.md R80-R88), the
encoder, and the opcode map's match and mask values (R82). -/

namespace Sys2Proof

/-- Why a word spells no command (R85, R86). -/
inductive IllegalWord where
  /-- a bit of RSV (31:17) is set -/
  | reservedBits
  /-- OPC is 0x09 to 0xFF -/
  | reservedOpcode
  /-- FMT = 1 on an opcode other than ENCODE and DECODE -/
  | fmtNotUsed
  /-- SYM ≠ 0 on an opcode other than QUERY -/
  | symNotUsed
  deriving DecidableEq, Repr

/-! ## Fields -/

/-- OPC, bits 7:0 (R81). -/
def fieldOpc (w : Word) : BitVec 8 := w.extractLsb' 0 8
/-- SYM, bits 15:8 (R81). -/
def fieldSym (w : Word) : BitVec 8 := w.extractLsb' 8 8
/-- FMT, bit 16 (R81). -/
def fieldFmt (w : Word) : BitVec 1 := w.extractLsb' 16 1
/-- RSV, bits 31:17 (R81). -/
def fieldRsv (w : Word) : BitVec 15 := w.extractLsb' 17 15

/-- ENCODE and DECODE: the commands R104 makes exceptions for. -/
def Instr.isCodec : Instr → Bool
  | .encode _ => true
  | .decode _ => true
  | .nop => false
  | .clear => false
  | .count => false
  | .build => false
  | .travStart => false
  | .travNext => false
  | .query _ => false

/-! ## Decoding -/

/-- FMT as a format: 0 PACKED, 1 ASCII (R83). -/
def fmtOfBit (b : BitVec 1) : Fmt := if b = 0 then .packed else .ascii

/-- The FMT bit of a format (R83). -/
def Fmt.bit : Fmt → BitVec 1
  | .packed => 0
  | .ascii => 1

/-- A word of a command with no operand field: FMT and SYM must be 0 (R85). -/
def decodePlain (w : Word) (i : Instr) : Except IllegalWord Instr :=
  if fieldFmt w ≠ 0 then .error .fmtNotUsed
  else if fieldSym w ≠ 0 then .error .symNotUsed
  else .ok i

/-- A word of ENCODE or DECODE: SYM must be 0, FMT is the operand (R83, R85). -/
def decodeCodec (w : Word) (i : Fmt → Instr) : Except IllegalWord Instr :=
  if fieldSym w ≠ 0 then .error .symNotUsed
  else .ok (i (fmtOfBit (fieldFmt w)))

/-- A word of QUERY: FMT must be 0, SYM is the operand (R84, R85). -/
def decodeQuery (w : Word) : Except IllegalWord Instr :=
  if fieldFmt w ≠ 0 then .error .fmtNotUsed
  else .ok (.query (fieldSym w))

/-- `decode(w)` of R88: the command `w` spells, or the name of what makes it ILLEGAL. It depends on `w` alone. -/
def decodeWord (w : Word) : Except IllegalWord Instr :=
  if fieldRsv w ≠ 0 then .error .reservedBits
  else
    match (fieldOpc w).toNat with
    | 0x00 => decodePlain w .nop
    | 0x01 => decodePlain w .clear
    | 0x02 => decodePlain w .count
    | 0x03 => decodePlain w .build
    | 0x04 => decodeCodec w .encode
    | 0x05 => decodeCodec w .decode
    | 0x06 => decodePlain w .travStart
    | 0x07 => decodePlain w .travNext
    | 0x08 => decodeQuery w
    | _ => .error .reservedOpcode

/-- The word `{RSV, FMT, SYM, OPC}` with RSV = 0 (R81). -/
def packWord (fmt : BitVec 1) (sym opc : BitVec 8) : Word := (0 : BitVec 15) ++ fmt ++ sym ++ opc

/-- The word of a command (R82, R89). -/
def encodeWord : Instr → Word
  | .nop => packWord 0 0 0x00
  | .clear => packWord 0 0 0x01
  | .count => packWord 0 0 0x02
  | .build => packWord 0 0 0x03
  | .encode fmt => packWord fmt.bit 0 0x04
  | .decode fmt => packWord fmt.bit 0 0x05
  | .travStart => packWord 0 0 0x06
  | .travNext => packWord 0 0 0x07
  | .query sym => packWord 0 sym 0x08

/-- The match value of a command's row in R82. -/
def Instr.matchWord : Instr → Word
  | .nop => 0x00000000
  | .clear => 0x00000001
  | .count => 0x00000002
  | .build => 0x00000003
  | .encode _ => 0x00000004
  | .decode _ => 0x00000005
  | .travStart => 0x00000006
  | .travNext => 0x00000007
  | .query _ => 0x00000008

/-- The mask value of a command's row in R82. -/
def Instr.maskWord : Instr → Word
  | .nop => 0xFFFFFFFF
  | .clear => 0xFFFFFFFF
  | .count => 0xFFFFFFFF
  | .build => 0xFFFFFFFF
  | .encode _ => 0xFFFEFFFF
  | .decode _ => 0xFFFEFFFF
  | .travStart => 0xFFFFFFFF
  | .travNext => 0xFFFFFFFF
  | .query _ => 0xFFFF00FF

/-- Is this word ENCODE's or DECODE's (R104, R233)? An illegal word is neither. -/
def wordIsCodec (w : Word) : Bool :=
  match decodeWord w with
  | .ok i => i.isCodec
  | .error _ => false

/-- The command word whose `nbits` low bits are those of `w` and whose other bits are 0. -/
def tableWord (nbits w : Nat) : Word := BitVec.ofNat 32 (w % 2 ^ nbits)

/-- The command the decoder reads from an opcode-table row's word. A command word is one 32-bit value written whole
to CMD (R80), so no byte order enters. -/
def decodeTableWord (nbits w : Nat) : Option Instr :=
  match decodeWord (tableWord nbits w) with
  | .ok i => some i
  | .error _ => none

end Sys2Proof
end

