-- ==== Sys2Proof/Machine/State.lean ====
section
/-! DEFINITION. All the state the spec gives the block (spec/10_state.md), the host's inputs to it (spec/10_state.md
R36, R37), and the state after reset (R51). -/

namespace Sys2Proof.Machine

/-- The construction state, STATUS.PHASE (R30); "value 3 never occurs" (R26). -/
inductive Phase where
  /-- 0: the frequency table has no entry -/
  | empty
  /-- 1: at least one entry, no tree built -/
  | collect
  /-- 2: tree and code table valid -/
  | built
  deriving DecidableEq, Repr

/-- The error codes (R200); "a model's ERRCODE type may have only the codes 0-8" (U12). -/
inductive ErrCode where
  /-- 0 -/
  | none
  /-- 1 -/
  | emptyInput
  /-- 2 -/
  | buildError
  /-- 3 -/
  | unknownSymbol
  /-- 4 -/
  | invalidBit
  /-- 5 -/
  | truncatedStream
  /-- 6 -/
  | illegalCommand
  /-- 7 -/
  | sequenceError
  /-- 8 -/
  | capacityError
  deriving DecidableEq, Repr

/-- An entry of the frequency table FT (R40): present exactly when its count is not 0. -/
structure FreqEntry where
  count : BitVec 32
  rank : BitVec 8
  deriving DecidableEq, Repr

/-- The absent entry (R40: reset and CLEAR set COUNT and RANK to 0). -/
def FreqEntry.absent : FreqEntry := { count := 0, rank := 0 }

/-- NODE[id].KIND (R44); "0 is never stored in a node in use". -/
inductive NodeKind where
  /-- 0 -/
  | unused
  /-- 1 -/
  | leaf
  /-- 2 -/
  | internal
  /-- 3 -/
  | void
  deriving DecidableEq, Repr

/-- An entry of the node arena NODE (R43). -/
structure Node where
  kind : NodeKind
  sym : Sym
  freq : BitVec 32
  left : NodeId
  right : NodeId
  deriving DecidableEq, Repr

/-- An arena entry nothing has been stored in. -/
def Node.unused : Node := { kind := .unused, sym := 0, freq := 0, left := 0, right := 0 }

/-- An entry of the code table CT (R46). CBITS is "a sequence of CLEN bits", so CLEN is its length and the cells at
an index ≥ CLEN, which "hold 0", are not stored (assumption 6). -/
structure CodeEntry where
  cbits : List Bool
  deriving DecidableEq, Repr

/-- The entry of a symbol with no code: CLEN 0 and all cells 0 (R46). -/
def CodeEntry.absent : CodeEntry := { cbits := [] }

/-- A byte memory: the bytes written since its background was drawn, addresses strictly rising (assumption 3). -/
abbrev Memory := List Host.Cell

/-- What the host does to the block, in the order in which it takes effect. One machine step takes the oldest
event; where the block is BUSY, an event `access` takes effect before the running command completes, and an event
`complete` (or an empty list) lets the command complete: so a list says how the host and the engine interleave,
and every interleaving R245 allows is some list (assumption 4). -/
inductive HostEvent where
  /-- one bus access answered (R37) -/
  | access (a : BusAccess)
  /-- the bus is idle until the running command completes (R91 `wait`) -/
  | complete
  /-- an access answered in the cycle in which the running command completes (R27) -/
  | accessAtCompletion (a : BusAccess)
  /-- rst = 1 at a rising clock edge, no access in progress (R230) -/
  | reset
  /-- rst = 1 while an access is in progress (R234) -/
  | resetDuring (a : BusAccess)
  deriving DecidableEq, Repr

/-- The block's answer to an access: "exactly one of hb_ack = 1 or hb_err = 1 for one cycle" (R37). -/
inductive BusAnswer where
  /-- hb_ack for a write -/
  | ackWrite
  /-- hb_ack for a read, with hb_rdata -/
  | ackRead (rdata : Word)
  /-- hb_err for a write: nothing changed (R62) -/
  | errWrite
  /-- hb_err for a read: hb_rdata is 0 (R62) -/
  | errRead
  deriving DecidableEq, Repr

/-- The block's state. The fields marked MODEL'S OWN, `params`, `events` and `answer` are the model's form of what
R8, R36, R37 and R104 give (assumptions 2, 4, 8); every other field is a piece of state of spec/10_state.md. -/
structure State where
  /-- the parameters IBUF_SIZE, OBUF_SIZE, BASE_ADDR (R8, P1); no step changes them -/
  params : Params
  /-- the host's accesses and resets still to take effect, oldest first (the input ports of R36) -/
  events : List HostEvent
  /-- hb_ack, hb_err and hb_rdata in the cycle this state shows (R36, R37) -/
  answer : Option BusAnswer
  /-- MODEL'S OWN: how many free values have been drawn; the next draw's number -/
  draws : Nat
  /-- STATUS.BUSY (R26) -/
  busy : Bool
  /-- STATUS.DONE (R26) -/
  done : Bool
  /-- STATUS.CMD_OVR (R26) -/
  cmdOvr : Bool
  /-- STATUS.PHASE (R26, R30) -/
  phase : Phase
  /-- STATUS.ERRCODE (R26, R200) -/
  errCode : ErrCode
  /-- CTRL.IE (R28) -/
  ie : Bool
  /-- LEN (R29) -/
  len : Word
  /-- BITLEN (R29) -/
  bitlen : Word
  /-- OUT_LEN (R31) -/
  outLen : Word
  /-- OUT_BITS (R31) -/
  outBits : Word
  /-- NSYM, bits 8:0 (R32) -/
  nsym : BitVec 9
  /-- TOTAL (R32) -/
  total : Word
  /-- ERRPOS (R33) -/
  errpos : Word
  /-- RES0-RES9 (R34) -/
  res : Vector Word 10
  /-- LCMD, the latched command word (R38) -/
  lcmd : Word
  /-- TPOS, the traversal iterator (R39) -/
  tpos : BitVec 10
  /-- FT (R40) -/
  ft : Vector FreqEntry 256
  /-- NODE (R43) -/
  node : Vector Node 511
  /-- NNODES (R43) -/
  nnodes : BitVec 10
  /-- ROOT (R43) -/
  root : NodeId
  /-- CT (R46) -/
  ct : Vector CodeEntry 256
  /-- CUR, the decoder's walk state (R48) -/
  cur : NodeId
  /-- START, the decoder's walk state (R48) -/
  start : Word
  /-- IBUF (R49): the bytes written since power-on -/
  ibuf : Memory
  /-- OBUF (R49): the bytes written since its contents were last drawn -/
  obuf : Memory
  /-- MODEL'S OWN: the number of the draw that is OBUF's background contents; 0 is the power-on draw -/
  obufDraw : Nat
  deriving DecidableEq, Repr

/-- Why the machine stops. No command raises either: they are the two things R234, R237 and R238 say a model
treats as a fault. -/
inductive Fault where
  /-- HOST_HAZARD: the host writes IBUF, LEN or BITLEN while BUSY = 1 (R237, R238; U5, U6). Raised by the bus
  write. Safe: the machine stops where the hardware goes on. -/
  | hostHazard
  /-- RESET_OVERLAP: an access in progress while rst = 1 (R234; U7). Raised by the event `resetDuring`. Safe: the
  machine stops where the hardware goes on. -/
  | resetOverlap
  deriving DecidableEq, Repr

/-- Why a command has no meaning. Every command has one, so nothing answers this. -/
inductive Refusal where
  /-- an instruction of the opcode table without a meaning; raised by a refused arm of `exec`, of which there is
  none. Safe. -/
  | notModelled (mnemonic : String)
  deriving DecidableEq, Repr

/-- The state after reset (R51, R230). Where R51 says "unspecified, never read" (LCMD, NODE, NNODES, ROOT, CT, CUR,
START) every field is 0 here (assumption 5); IBUF and OBUF list no byte, so each reads as its power-on value. -/
def State.reset : State :=
  { params := Params.default
    events := []
    answer := none
    draws := 1
    busy := false
    done := false
    cmdOvr := false
    phase := .empty
    errCode := .none
    ie := false
    len := 0
    bitlen := 0
    outLen := 0
    outBits := 0
    nsym := 0
    total := 0
    errpos := 0
    res := Vector.replicate 10 0
    lcmd := 0
    tpos := 0
    ft := Vector.replicate 256 FreqEntry.absent
    node := Vector.replicate 511 Node.unused
    nnodes := 0
    root := 0
    ct := Vector.replicate 256 CodeEntry.absent
    cur := 0
    start := 0
    ibuf := []
    obuf := []
    obufDraw := 0 }

end Sys2Proof.Machine
end

