-- ==== Sys2Proof/Machine/Flags.lean ====
section
/-! DEFINITION. The block's flags: STATUS, CTRL and irq as the host sees them, and every way a flag is set or
cleared (spec/10_state.md R26-R28, R35, R52; spec/40_control.md R100-R105). -/

namespace Sys2Proof.Machine

/-- The PHASE field's value (R30). -/
def Phase.code : Phase → BitVec 2
  | .empty => 0
  | .collect => 1
  | .built => 2

/-- The ERRCODE field's value (R200). -/
def ErrCode.code : ErrCode → BitVec 4
  | .none => 0
  | .emptyInput => 1
  | .buildError => 2
  | .unknownSymbol => 3
  | .invalidBit => 4
  | .truncatedStream => 5
  | .illegalCommand => 6
  | .sequenceError => 7
  | .capacityError => 8

/-- The KIND field's value (R44). -/
def NodeKind.code : NodeKind → BitVec 2
  | .unused => 0
  | .leaf => 1
  | .internal => 2
  | .void => 3

/-- One bit of a register word. -/
def flagBit (b : Bool) : BitVec 1 := BitVec.ofBool b

/-- STATUS as read: BUSY bit 0, DONE 1, CMD_OVR 2, PHASE 5:4, ERRCODE 11:8, every other bit 0 (R26). -/
def State.statusWord (s : State) : Word :=
  (0 : BitVec 20) ++ s.errCode.code ++ (0 : BitVec 2) ++ s.phase.code ++ (0 : BitVec 1) ++ flagBit s.cmdOvr ++
    flagBit s.done ++ flagBit s.busy

/-- CTRL as read: IE bit 0, every other bit 0 (R28). -/
def State.ctrlWord (s : State) : Word := (0 : BitVec 31) ++ flagBit s.ie

/-- The output irq: "high exactly when x[STATUS].DONE = 1 and x[CTRL].IE = 1" (R35). -/
def State.irq (s : State) : Bool := s.done && s.ie

/-- A write of `w` to STATUS clears DONE if w[1] and CMD_OVR if w[2]; every other bit is ignored (R27). -/
def State.writeStatus (s : State) (w : Word) : State :=
  { s with
    done := if w.getLsbD 1 then false else s.done
    cmdOvr := if w.getLsbD 2 then false else s.cmdOvr }

/-- A write of `w` to CTRL sets IE to w[0]; bits 31:1 are ignored (R28). -/
def State.writeCtrl (s : State) (w : Word) : State := { s with ie := w.getLsbD 0 }

/-- Acceptance of the word `w`: LCMD ← w, BUSY ← 1, DONE ← 0, ERRCODE ← 0 (R100). -/
def State.accept (s : State) (w : Word) : State :=
  { s with lcmd := w, busy := true, done := false, errCode := .none }

/-- A CMD write dropped because BUSY = 1: CMD_OVR ← 1 and nothing else (R101). -/
def State.dropCommand (s : State) : State := { s with cmdOvr := true }

/-- Successful completion: ERRPOS ← 0, "ERRCODE stays 0", BUSY ← 0, DONE ← 1 (R103). -/
def State.succeed (s : State) : State :=
  { s with errpos := 0, busy := false, done := true }

/-- The status a failed completion leaves: ERRCODE ← code(E), ERRPOS ← info, BUSY ← 0, DONE ← 1 (R104). -/
def State.failStatus (s : State) (code : ErrCode) (info : Word) : State :=
  { s with errCode := code, errpos := info, busy := false, done := true }

end Sys2Proof.Machine
end

