-- ==== Sys2Proof/Machine/Ops.lean ====
section
/-! DEFINITION. The operations every command is built from: byte memories (spec/20_memory.md R63), the tables FT,
NODE and CT (spec/10_state.md R40-R46), bit packing (R66), the phase check (spec/40_control.md R108), the error entry
(R104, the block's only exception), the life of a command (R102), and reset (spec/70_reset_and_hazards.md R230). -/

namespace Sys2Proof.Machine

/-! ## Byte memories -/

/-- The byte written at `i`, if one was. -/
def Memory.lookup : Memory → Nat → Option Byte
  | [], _ => none
  | c :: m, i => if i = c.1 then some c.2 else Memory.lookup m i

/-- Write `v` at `i`, keeping the addresses strictly rising. -/
def Memory.write : Memory → Nat → Byte → Memory
  | [], i, v => [(i, v)]
  | c :: m, i, v =>
    if i < c.1 then (i, v) :: c :: m
    else if i = c.1 then (i, v) :: m
    else c :: Memory.write m i v

/-- Write the bytes in order from index `i` up. -/
def Memory.writeBytes : Memory → Nat → List Byte → Memory
  | m, _, [] => m
  | m, i, v :: vs => Memory.writeBytes (Memory.write m i v) (i + 1) vs

/-- Every address of `m` is at least `lo` and they rise strictly. -/
def Memory.risesFrom : Nat → Memory → Bool
  | _, [] => true
  | lo, c :: m => decide (lo ≤ c.1) && Memory.risesFrom (c.1 + 1) m

/-- The canonical form of a memory of `size` bytes: addresses strictly rising and below `size`. An unlisted index
reads as a free value, which no listed byte is known to equal, so a write never removes an entry (assumption 3). -/
def Memory.wf (size : Nat) (m : Memory) : Bool :=
  Memory.risesFrom 0 m && m.all (fun c => decide (c.1 < size))

/-- `MemRead(IBUF, i, 1)` (R12, R63): an index never written reads as its power-on byte (R50). -/
def State.ibufByte (s : State) (i : Nat) : Byte := (Memory.lookup s.ibuf i).getD (Config.powerOnIbuf i)

/-- Byte `i` of OBUF: an index not written since the last draw reads as that draw's byte (R50, R104). -/
def State.obufByte (s : State) (i : Nat) : Byte := (Memory.lookup s.obuf i).getD (Config.freeObuf s.obufDraw i)

/-- Every OBUF byte becomes unspecified: "a model draws every OBUF byte afresh, under no law" (R104). -/
def State.redrawObuf (s : State) : State :=
  { s with obuf := [], obufDraw := s.draws, draws := s.draws + 1 }

/-! ## Tables -/

/-- `FT[s]` (R40). -/
def State.ftAt (s : State) (sym : Sym) : FreqEntry := s.ft[sym.toNat]'sym.isLt

/-- Is the symbol present: FT[s].COUNT > 0 (R40)? -/
def State.present (s : State) (sym : Sym) : Bool := (s.ftAt sym).count != 0

/-- `CT[s]` (R46). -/
def State.ctAt (s : State) (sym : Sym) : CodeEntry := s.ct[sym.toNat]'sym.isLt

/-- CLEN as a number of bits. -/
def CodeEntry.length (c : CodeEntry) : Nat := c.cbits.length

/-- CLEN, the 8-bit field (R46). -/
def CodeEntry.clen (c : CodeEntry) : BitVec 8 := BitVec.ofNat 8 c.length

/-- The node arena as a table of its own. -/
abbrev Arena := Vector Node 511

/-- `NODE[id]` (R43). Id 511 is no entry of the arena and no rule names it; it reads as an unused entry
(assumption 7). -/
def nodeAt (nodes : Arena) (id : Nat) : Node := nodes[id]?.getD Node.unused

/-- `NODE[id] <- v` (R43). -/
def setNode (nodes : Arena) (id : Nat) (v : Node) : Arena := nodes.setIfInBounds id v

/-! ## Bit packing -/

/-- The first `n` bits as a number, first bit most significant, missing bits 0 (R66, R154). -/
def packMsb : Nat → List Bool → Nat
  | 0, _ => 0
  | n + 1, bits => (bits.headD false).toNat * 2 ^ n + packMsb n bits.tail

/-- A bit sequence in `n` bytes, most significant bit first, the last one zero-padded (R66). -/
def packBytes : Nat → List Bool → List Byte
  | 0, _ => []
  | n + 1, bits => BitVec.ofNat 8 (packMsb 8 bits) :: packBytes n (bits.drop 8)

/-- A bit sequence in ASCII form, one byte 0x30 or 0x31 per bit (R67). -/
def asciiBytes (bits : List Bool) : List Byte := bits.map (fun b => if b then 0x31 else 0x30)

/-- `ceil(x / 8)` (R11). -/
def ceilDiv8 (x : Nat) : Nat := (x + 7) / 8

/-! ## Errors and the life of a command -/

/-- What `raise E(info)` carries (R12). -/
structure CmdError where
  code : ErrCode
  info : Word
  deriving DecidableEq, Repr

/-- The error position of the length pre-checks and the total check (R208). -/
def noPosition : Word := 0xFFFFFFFF

/-- An error "raised in the input scan (UNKNOWN_SYMBOL, INVALID_BIT, TRUNCATED_STREAM, or CAPACITY_ERROR with
info ≠ 0xFFFFFFFF, that is at an input position)" (R104). -/
def CmdError.inScan (e : CmdError) : Bool :=
  match e.code with
  | .unknownSymbol => true
  | .invalidBit => true
  | .truncatedStream => true
  | .capacityError => e.info != noPosition
  | .none => false
  | .emptyInput => false
  | .buildError => false
  | .illegalCommand => false
  | .sequenceError => false

/-- THE ERROR ENTRY, shared by every command (R104, R211). `s` is the state the command began in, so every write of
its body is discarded. `codec` says the word is a legal ENCODE or DECODE: then OUT_LEN and OUT_BITS become 0, and
after an error of the input scan every byte of OBUF is unspecified. Nothing is saved and no handler runs: an error
is a completion status. -/
def State.raiseError (s : State) (codec : Bool) (e : CmdError) : State :=
  let s := if codec then { s with outLen := 0, outBits := 0 } else s
  let s := if codec && e.inScan then s.redrawObuf else s
  s.failStatus e.code e.info

/-- The phase check (R108): the error it raises for a command in a phase, or none if the check passes. -/
def phaseCheck (i : Instr) (p : Phase) (lcmd : Word) : Option CmdError :=
  match i, p with
  | .nop, _ => none
  | .clear, _ => none
  | .count, .empty => none
  | .count, .collect => none
  | .count, .built => some ⟨.buildError, lcmd⟩
  | .build, .empty => some ⟨.emptyInput, 0⟩
  | .build, .collect => none
  | .build, .built => some ⟨.buildError, lcmd⟩
  | .encode _, .built => none
  | .encode _, _ => some ⟨.sequenceError, lcmd⟩
  | .decode _, .built => none
  | .decode _, _ => some ⟨.sequenceError, lcmd⟩
  | .travStart, .built => none
  | .travStart, _ => some ⟨.sequenceError, lcmd⟩
  | .travNext, .built => none
  | .travNext, _ => some ⟨.sequenceError, lcmd⟩
  | .query _, _ => none

/-- Steps 2 and 3 of R102 and the completion: the phase check, the command's body, then success (R103) or the error
entry (R104). -/
def runCommand (i : Instr) (body : State → Except CmdError State) (s : State) : Host.Outcome State Fault Refusal :=
  match phaseCheck i s.phase s.lcmd with
  | some e => .next (s.raiseError i.isCodec e)
  | none =>
    match body s with
    | .ok t => .next t.succeed
    | .error e => .next (s.raiseError i.isCodec e)

/-- Step 1 of R102 for a word that spells no command: ILLEGAL_COMMAND(LCMD), and "no state other than the status
changes, whatever the opcode bits say" (R206). -/
def illegalCommand (s : State) : Host.Outcome State Fault Refusal :=
  .next (s.raiseError false ⟨.illegalCommand, s.lcmd⟩)

/-! ## Reset -/

/-- What reset does to OBUF: unchanged (R232), but unspecified if it abandons an ENCODE or DECODE (R233). -/
def State.abandonCodec (s : State) : State :=
  if s.busy && wordIsCodec s.lcmd then s.redrawObuf else s

/-- rst = 1 at a rising clock edge (R230): every register and FT take the reset values of R51, IBUF and OBUF are
unchanged (R232), a running command is abandoned (R233). NODE, NNODES, ROOT and CT, "unspecified, never read", are left
as they were (U10); LCMD is 0 (U11); CUR and START are free values. -/
def State.hardReset (s : State) : State :=
  let s := s.abandonCodec
  { s with
    answer := none
    busy := false
    done := false
    cmdOvr := false
    phase := .empty
    errCode := .none
    ie := false
    len := 0
    bitlen := 0
    outLen := 0
    outBits := 0
    nsym := 0
    total := 0
    errpos := 0
    res := Vector.replicate 10 0
    lcmd := 0
    tpos := 0
    ft := Vector.replicate 256 FreqEntry.absent
    cur := Config.freeCur s.draws
    start := Config.freeStart s.draws
    draws := s.draws + 1 }

end Sys2Proof.Machine
end

