-- ==== Sys2Proof/Machine/Bus.lean ====
section
/-! DEFINITION. The host's bus accesses (spec/20_memory.md R60-R65, R69; spec/10_state.md R22-R29, R37) and the hazards
of accesses while a command runs (spec/70_reset_and_hazards.md R237-R240). -/

namespace Sys2Proof

/-! ## The access itself -/

/-- The number of bytes an access moves: hb_size 0, 1, 2 is 1, 2, 4 bytes (R61). -/
def BusAccess.bytes (a : BusAccess) : Nat := 2 ^ a.size.toNat

/-- The region of a byte address, by its bits 17:16 (R60). -/
def BusAccess.region (a : BusAccess) : Region :=
  match a.addr.toNat / 0x10000 with
  | 0 => .registers
  | 1 => .ibufWindow
  | 2 => .obufWindow
  | _ => .reserved

/-- The offset of the access inside its region (R60). -/
def BusAccess.offset (a : BusAccess) : Nat := a.addr.toNat % 0x10000

/-- "hb_size = 3 is illegal" (R61). -/
def BusAccess.sizeLegal (a : BusAccess) : Bool := a.size != 3
/-- "An access of size N bytes must be naturally aligned (hb_addr mod N = 0)" (R62). -/
def BusAccess.aligned (a : BusAccess) : Bool := a.addr.toNat % a.bytes == 0
/-- "In the register region (0x00000-0x0FFFF) only word accesses are legal" (R62). -/
def BusAccess.widthAllowed (a : BusAccess) : Bool := a.region != .registers || a.size == 2

/-- An access that R61 and R62 do not answer with hb_err. -/
def BusAccess.legal (a : BusAccess) : Bool := a.sizeLegal && a.aligned && a.widthAllowed

end Sys2Proof

namespace Sys2Proof.Machine

/-! ## Registers -/

/-- The registers of the map R22. -/
inductive Reg where
  | id | version | cmd | status | ctrl | len | bitlen | outLen | outBits | nsym | total | errpos
  | res (k : Fin 10)
  deriving DecidableEq, Repr

/-- The register at a word-aligned offset, if one is there (R22, R23). -/
def Reg.atOffset (off : Nat) : Option Reg :=
  match off with
  | 0x000 => some .id
  | 0x004 => some .version
  | 0x008 => some .cmd
  | 0x00C => some .status
  | 0x010 => some .ctrl
  | 0x014 => some .len
  | 0x018 => some .bitlen
  | 0x01C => some .outLen
  | 0x020 => some .outBits
  | 0x024 => some .nsym
  | 0x028 => some .total
  | 0x02C => some .errpos
  | _ => if h : off % 4 = 0 ∧ 0x030 ≤ off ∧ off < 0x058 then some (.res ⟨(off - 0x030) / 4, by omega⟩) else none

/-- ID, "hardwired to 0x48554646" (R24). -/
def idValue : Word := 0x48554646
/-- VERSION, "hardwired to 0x00000001" (R24). -/
def versionValue : Word := 0x00000001

/-- What a register holds for a read; CMD reads 0 (R23). -/
def State.regValue (s : State) : Reg → Word
  | .id => idValue
  | .version => versionValue
  | .cmd => 0
  | .status => s.statusWord
  | .ctrl => s.ctrlWord
  | .len => s.len
  | .bitlen => s.bitlen
  | .outLen => s.outLen
  | .outBits => s.outBits
  | .nsym => s.nsym.setWidth 32
  | .total => s.total
  | .errpos => s.errpos
  | .res k => s.res[k.val]'k.isLt

/-- The registers whose read "returns an unspecified value" while BUSY = 1 (R239). -/
def Reg.unstable : Reg → Bool
  | .outLen => true
  | .outBits => true
  | .nsym => true
  | .total => true
  | .errpos => true
  | .res _ => true
  | .id => false
  | .version => false
  | .cmd => false
  | .status => false
  | .ctrl => false
  | .len => false
  | .bitlen => false

/-! ## Bytes of a bus word -/

/-- Byte `j` of a bus word, byte 0 in bits 7:0 (R64). -/
def busByte (w : Word) (j : Nat) : Byte := w.extractLsb' (8 * j) 8

/-- The `n` low bytes of a bus word, from byte `j` up. -/
def busBytes (w : Word) : (j n : Nat) → List Byte
  | _, 0 => []
  | j, n + 1 => busByte w j :: busBytes w (j + 1) n

/-- The value of bytes in little-endian order. -/
def littleEndian : List Byte → Nat
  | [] => 0
  | b :: bs => b.toNat + 256 * littleEndian bs

/-- Bytes assembled right-aligned in little-endian order, upper bits 0 (R64). -/
def assemble (bytes : List Byte) : Word := BitVec.ofNat 32 (littleEndian bytes)

/-- Byte `i` of the IBUF window: empty, reading 0, at or past IBUF_SIZE (R60). -/
def State.ibufWindowByte (s : State) (i : Nat) : Byte := if i < s.params.ibufSize then s.ibufByte i else 0

/-- Byte `i` of the OBUF window: empty, reading 0, at or past OBUF_SIZE (R60). -/
def State.obufWindowByte (s : State) (i : Nat) : Byte := if i < s.params.obufSize then s.obufByte i else 0

/-- The bytes of a window from index `i` up. -/
def windowBytes (byteAt : Nat → Byte) : (i n : Nat) → List Byte
  | _, 0 => []
  | i, n + 1 => byteAt i :: windowBytes byteAt (i + 1) n

/-! ## Reads -/

/-- The answer of a legal read. -/
def State.answerRead (s : State) (w : Word) : State := { s with answer := some (.ackRead w) }

/-- The answer of a legal write. -/
def State.answerWrite (s : State) : State := { s with answer := some .ackWrite }

/-- A read of a register: an offset that holds none reads 0 (R23); one that R239 names reads a fresh free value
while BUSY = 1. -/
def State.readReg (s : State) (off : Nat) : State :=
  match Reg.atOffset off with
  | none => s.answerRead 0
  | some r =>
    if s.busy && r.unstable then { s.answerRead (Config.freeReadData s.draws) with draws := s.draws + 1 }
    else s.answerRead (s.regValue r)

/-- A read of `n` bytes of IBUF at index `i`; valid at any time (R239). -/
def State.readIbuf (s : State) (i n : Nat) : State := s.answerRead (assemble (windowBytes s.ibufWindowByte i n))

/-- A read of `n` bytes of OBUF at index `i`: while BUSY = 1 its bytes are one fresh free value (R239); empty
addresses read 0 at any time (R60). -/
def State.readObuf (s : State) (i n : Nat) : State :=
  if s.busy && decide (i < s.params.obufSize) then
    { s.answerRead
        (assemble
          (windowBytes (fun j => if j < s.params.obufSize then busByte (Config.freeReadData s.draws) (j - i) else 0) i n))
      with draws := s.draws + 1 }
  else s.answerRead (assemble (windowBytes s.obufWindowByte i n))

/-- A legal read, by region (R60); no read has a side effect on the block (R69). -/
def State.busRead (s : State) (a : BusAccess) : State :=
  match a.region with
  | .registers => s.readReg a.offset
  | .ibufWindow => s.readIbuf a.offset a.bytes
  | .obufWindow => s.readObuf a.offset a.bytes
  | .reserved => s.answerRead 0

/-! ## Writes -/

/-- A write to CMD: accepted if the block is idle (R100), else dropped (R101). -/
def State.writeCmd (s : State) (w : Word) : State := if s.busy then s.dropCommand else s.accept w

/-- A write of a word to a register: read-only registers and empty offsets ignore it (R23); LEN and BITLEN while
BUSY = 1 are a host hazard (R238). -/
def State.writeReg (s : State) (off : Nat) (w : Word) : Host.Outcome State Fault Refusal :=
  match Reg.atOffset off with
  | none => .next s.answerWrite
  | some .cmd => .next (s.writeCmd w).answerWrite
  | some .status => .next (s.writeStatus w).answerWrite
  | some .ctrl => .next (s.writeCtrl w).answerWrite
  | some .len => if s.busy then .fault .hostHazard else .next { s with len := w }.answerWrite
  | some .bitlen => if s.busy then .fault .hostHazard else .next { s with bitlen := w }.answerWrite
  | some .id => .next s.answerWrite
  | some .version => .next s.answerWrite
  | some .outLen => .next s.answerWrite
  | some .outBits => .next s.answerWrite
  | some .nsym => .next s.answerWrite
  | some .total => .next s.answerWrite
  | some .errpos => .next s.answerWrite
  | some (.res _) => .next s.answerWrite

/-- The bytes of a write that fall on IBUF: those at or past IBUF_SIZE are at empty addresses (R60). -/
def State.bytesInIbuf (s : State) (i : Nat) (bytes : List Byte) : List Byte := bytes.take (s.params.ibufSize - i)

/-- A write of bytes to the IBUF window from index `i` (R64, R65): a write that reaches a byte of IBUF while
BUSY = 1 is a host hazard (R237). -/
def State.writeIbuf (s : State) (i : Nat) (bytes : List Byte) : Host.Outcome State Fault Refusal :=
  if s.busy && decide (i < s.params.ibufSize) then .fault .hostHazard
  else .next { s with ibuf := Memory.writeBytes s.ibuf i (s.bytesInIbuf i bytes) }.answerWrite

/-- A legal write, by region: OBUF is read-only to the host (R65) and the reserved region is empty (R60). -/
def State.busWrite (s : State) (a : BusAccess) : Host.Outcome State Fault Refusal :=
  match a.region with
  | .registers => s.writeReg a.offset a.wdata
  | .ibufWindow => s.writeIbuf a.offset (busBytes a.wdata 0 a.bytes)
  | .obufWindow => .next s.answerWrite
  | .reserved => .next s.answerWrite

/-! ## An access -/

/-- The answer to an access that breaks R61 or R62: hb_err, "no effect on any state" (R62, R224). -/
def State.answerError (s : State) (a : BusAccess) : State :=
  { s with answer := some (if a.we then .errWrite else .errRead) }

/-- One host access takes effect and is answered (R37). -/
def hostAccess (a : BusAccess) (s : State) : Host.Outcome State Fault Refusal :=
  if a.legal then
    if a.we then s.busWrite a else .next (s.busRead a)
  else .next (s.answerError a)

/-! ## The output ports -/

/-- hb_ack (R36). -/
def State.hbAck (s : State) : Bool :=
  match s.answer with
  | some .ackWrite => true
  | some (.ackRead _) => true
  | some .errWrite => false
  | some .errRead => false
  | none => false

/-- hb_err (R36). -/
def State.hbErr (s : State) : Bool :=
  match s.answer with
  | some .errWrite => true
  | some .errRead => true
  | some .ackWrite => false
  | some (.ackRead _) => false
  | none => false

/-- hb_rdata in the cycle in which a read is answered; it is valid in no other (R37). -/
def State.hbRdata (s : State) : Option Word :=
  match s.answer with
  | some (.ackRead w) => some w
  | some .errRead => some 0
  | some .ackWrite => none
  | some .errWrite => none
  | none => none

end Sys2Proof.Machine
end

