-- ==== Sys2Proof/Machine/Operands.lean ====
section
/-! DEFINITION. The operands of the commands (spec/30_encoding.md R83-R87): the input bytes LEN names, the bit source
of DECODE (spec/45_decoder.md R171), the input length and the capacities (R160, R164, R170, R176). -/

namespace Sys2Proof.Machine

/-- The `n` bytes IBUF[i .. i+n−1], in order. -/
def State.ibufBytes (s : State) : (i n : Nat) → List Byte
  | _, 0 => []
  | i, n + 1 => s.ibufByte i :: s.ibufBytes (i + 1) n

/-- The input bytes of COUNT and ENCODE: IBUF[0 .. LEN−1] (R87). -/
def State.inputBytes (s : State) : List Byte := s.ibufBytes 0 s.len.toNat

/-- N, the number of input bits of DECODE: BITLEN for PACKED, LEN for ASCII (R170). -/
def State.inputBits (s : State) : Fmt → Nat
  | .packed => s.bitlen.toNat
  | .ascii => s.len.toNat

/-- How many input bits IBUF holds: 8·IBUF_SIZE for PACKED, IBUF_SIZE for ASCII (R170). -/
def State.inputBitCapacity (s : State) : Fmt → Nat
  | .packed => 8 * s.params.ibufSize
  | .ascii => s.params.ibufSize

/-- `cap`, how many output bits OBUF holds: 8·OBUF_SIZE for PACKED, OBUF_SIZE for ASCII (R160, R164). -/
def State.outputBitCapacity (s : State) : Fmt → Nat
  | .packed => 8 * s.params.obufSize
  | .ascii => s.params.obufSize

/-- `bit(k)` of DECODE (R171): an ASCII byte other than 0x30 and 0x31 raises INVALID_BIT(k). -/
def State.inputBit (s : State) (fmt : Fmt) (k : Nat) : Except CmdError Bool :=
  match fmt with
  | .packed => .ok ((s.ibufByte (k / 8)).getLsbD (7 - k % 8))
  | .ascii =>
    if s.ibufByte k = 0x30 then .ok false
    else if s.ibufByte k = 0x31 then .ok true
    else .error ⟨.invalidBit, BitVec.ofNat 32 k⟩

end Sys2Proof.Machine
end

