-- ==== Sys2Proof/Machine/Control.lean ====
section
/-! DEFINITION. NOP and CLEAR (spec/40_control.md R106, R107). -/

namespace Sys2Proof.Machine

/-- `body(NOP) = skip` (R106). -/
def nopBody (s : State) : Except CmdError State := .ok s

/-- NOP: "does nothing but complete" (R106). -/
def execNop (s : State) : Host.Outcome State Fault Refusal := runCommand .nop nopBody s

/-- The body of CLEAR (R107). NODE, NNODES, ROOT and CT "become invalid": they are left as they were (U10). -/
def clearBody (s : State) : Except CmdError State :=
  .ok
    { s with
      ft := Vector.replicate 256 FreqEntry.absent
      nsym := 0
      total := 0
      phase := .empty
      tpos := 0
      outLen := 0
      outBits := 0
      res := Vector.replicate 10 0 }

/-- CLEAR: "discards the corpus, tree and code table" (R107). -/
def execClear (s : State) : Host.Outcome State Fault Refusal := runCommand .clear clearBody s

end Sys2Proof.Machine
end

