-- ==== Sys2Proof/Machine/Decoder.lean ====
section
/-! DEFINITION. DECODE (spec/45_decoder.md R170-R176). -/

namespace Sys2Proof.Machine

/-- The walk's state (R48, R170): CUR, START, how many symbols are out, and OBUF with them written. -/
structure Walk where
  cur : NodeId
  start : Nat
  out : Nat
  obuf : Memory
  deriving DecidableEq, Repr

/-- The walk at bit 0: "CUR = ROOT; START = 0; out = 0" (R170). -/
def State.walkStart (s : State) : Walk := { cur := s.root, start := 0, out := 0, obuf := s.obuf }

/-- The child a bit leads to: LEFT for 0, RIGHT for 1 (R170, R173). -/
def State.childOf (s : State) (id : NodeId) (b : Bool) : NodeId :=
  if b then (nodeAt s.node id.toNat).right else (nodeAt s.node id.toNat).left

/-- One pass of DECODE's loop for bit `b` at index `k` (R170): the transition first, then the test of the new node
(R173). `emit` writes the symbol at `out` (R172). A node of kind 0 is in no tree (R44) and is passed over. -/
def State.walkBit (s : State) (w : Walk) (k : Nat) (b : Bool) : Except CmdError Walk :=
  match (nodeAt s.node (s.childOf w.cur b).toNat).kind with
  | .void => .error ⟨.invalidBit, BitVec.ofNat 32 k⟩
  | .leaf =>
    if w.out = s.params.obufSize then .error ⟨.capacityError, BitVec.ofNat 32 k⟩
    else
      .ok
        { cur := s.root
          start := k + 1
          out := w.out + 1
          obuf := Memory.write w.obuf w.out (nodeAt s.node (s.childOf w.cur b).toNat).sym }
  | .internal => .ok { w with cur := s.childOf w.cur b }
  | .unused => .ok { w with cur := s.childOf w.cur b }

/-- DECODE's loop over the `n` bits from index `k` on (R170); at one bit a malformed token is detected before the
tree step. -/
def State.decodeScan (s : State) (fmt : Fmt) : (n k : Nat) → Walk → Except CmdError Walk
  | 0, _, w => .ok w
  | n + 1, k, w =>
    match s.inputBit fmt k with
    | .error e => .error e
    | .ok b =>
      match s.walkBit w k b with
      | .error e => .error e
      | .ok w' => s.decodeScan fmt n (k + 1) w'

/-- The results of a walk that ended at the root after `n` bits (R170). -/
def State.finishDecode (s : State) (n : Nat) (w : Walk) : State :=
  { s with
    cur := w.cur
    start := BitVec.ofNat 32 w.start
    obuf := w.obuf
    outLen := BitVec.ofNat 32 w.out
    outBits := BitVec.ofNat 32 n }

/-- The body of DECODE (R170): "if CUR ≠ ROOT then raise TRUNCATED_STREAM(START)". -/
def decodeBody (fmt : Fmt) (s : State) : Except CmdError State :=
  if s.inputBits fmt > s.inputBitCapacity fmt then .error ⟨.capacityError, noPosition⟩
  else
    match s.decodeScan fmt (s.inputBits fmt) 0 s.walkStart with
    | .error e => .error e
    | .ok w =>
      if w.cur ≠ s.root then .error ⟨.truncatedStream, BitVec.ofNat 32 w.start⟩
      else .ok (s.finishDecode (s.inputBits fmt) w)

/-- DECODE: "decodes a bitstream from IBUF into symbols in OBUF by walking the tree" (R170). -/
def execDecode (fmt : Fmt) (s : State) : Host.Outcome State Fault Refusal :=
  runCommand (.decode fmt) (decodeBody fmt) s

end Sys2Proof.Machine
end

