-- ==== Sys2Proof/Machine/Encoder.lean ====
section
/-! DEFINITION. ENCODE (spec/44_encoder.md R160-R164). -/

namespace Sys2Proof.Machine

/-- ENCODE's scan of the input bytes from index `i` on, `used` bits produced so far (R160): the bits it appends, or
the first error. At one byte UNKNOWN_SYMBOL wins over CAPACITY_ERROR. -/
def State.encodeScan (s : State) (cap : Nat) : (i used : Nat) → List Byte → Except CmdError (List Bool)
  | _, _, [] => .ok []
  | i, used, b :: input =>
    if s.present b = false then .error ⟨.unknownSymbol, BitVec.ofNat 32 i⟩
    else if used + (s.ctAt b).length > cap then .error ⟨.capacityError, BitVec.ofNat 32 i⟩
    else
      match s.encodeScan cap (i + 1) (used + (s.ctAt b).length) input with
      | .ok bits => .ok ((s.ctAt b).cbits ++ bits)
      | .error e => .error e

/-- The bytes a bitstream takes in a format (R162, R163). -/
def formatBytes (fmt : Fmt) (bits : List Bool) : List Byte :=
  match fmt with
  | .packed => packBytes (ceilDiv8 bits.length) bits
  | .ascii => asciiBytes bits

/-- The bitstream written to OBUF from index 0, with OUT_LEN its bytes and OUT_BITS its bits (R160). -/
def State.writeStream (s : State) (fmt : Fmt) (bits : List Bool) : State :=
  { s with
    obuf := Memory.writeBytes s.obuf 0 (formatBytes fmt bits)
    outLen := BitVec.ofNat 32 (formatBytes fmt bits).length
    outBits := BitVec.ofNat 32 bits.length }

/-- The body of ENCODE (R160). -/
def encodeBody (fmt : Fmt) (s : State) : Except CmdError State :=
  if s.len.toNat > s.params.ibufSize then .error ⟨.capacityError, noPosition⟩
  else
    match s.encodeScan (s.outputBitCapacity fmt) 0 0 s.inputBytes with
    | .ok bits => .ok (s.writeStream fmt bits)
    | .error e => .error e

/-- ENCODE: "encodes IBUF[0 .. LEN−1] with the code table into OBUF" (R160). -/
def execEncode (fmt : Fmt) (s : State) : Host.Outcome State Fault Refusal :=
  runCommand (.encode fmt) (encodeBody fmt) s

end Sys2Proof.Machine
end

