-- ==== Sys2Proof/Machine/Frequency.lean ====
section
/-! DEFINITION. COUNT (spec/41_frequency.md R120-R122). -/

namespace Sys2Proof.Machine

/-- One pass of COUNT's loop, for the input byte `b` (R120, R121): a symbol counted for the first time takes the
number of distinct symbols before it as its rank. -/
def State.countByte (s : State) (b : Byte) : State :=
  let fresh := (s.ftAt b).count = 0
  let rank := if fresh then s.nsym.setWidth 8 else (s.ftAt b).rank
  { s with
    ft := s.ft.set b.toNat { count := (s.ftAt b).count + 1, rank := rank } b.isLt
    nsym := if fresh then s.nsym + 1 else s.nsym
    total := s.total + 1 }

/-- COUNT's loop over the input bytes (R120). -/
def State.countBytes (s : State) (input : List Byte) : State := input.foldl State.countByte s

/-- "if x[NSYM] > 0 then x[STATUS].PHASE <- COLLECT" (R120). -/
def State.collectIfAny (s : State) : State :=
  { s with phase := if s.nsym = 0 then s.phase else .collect }

/-- The body of COUNT (R120): the two capacity checks, then the loop. The total check is an exact integer sum. -/
def countBody (s : State) : Except CmdError State :=
  if s.len.toNat > s.params.ibufSize then .error ⟨.capacityError, noPosition⟩
  else if s.total.toNat + s.len.toNat > 2 ^ 32 - 1 then .error ⟨.capacityError, noPosition⟩
  else .ok (s.countBytes s.inputBytes).collectIfAny

/-- COUNT: "adds the bytes IBUF[0 .. LEN−1] to the frequency table" (R120). -/
def execCount (s : State) : Host.Outcome State Fault Refusal := runCommand .count countBody s

end Sys2Proof.Machine
end

