-- ==== Sys2Proof/Machine/CodeTable.lean ====
section
/-! DEFINITION. Code generation, the last step of BUILD (spec/43_code_table.md R150), and QUERY (R154-R156). -/

namespace Sys2Proof.Machine

/-- More levels than any tree has: a node's depth is at most 255 (R137). -/
def maxLevels : Nat := 512

/-- `visit(id, path)` of R150: the codes it records, left subtree before right. The VOID node records none (R151).
`levels` bounds the descent; `maxLevels` is never exhausted in a tree. -/
def codesFrom (nodes : Arena) : (levels id : Nat) → (path : List Bool) → List (Sym × List Bool)
  | 0, _, _ => []
  | levels + 1, id, path =>
    match (nodeAt nodes id).kind with
    | .leaf => [((nodeAt nodes id).sym, path)]
    | .internal =>
      codesFrom nodes levels (nodeAt nodes id).left.toNat (path ++ [false]) ++
        codesFrom nodes levels (nodeAt nodes id).right.toNat (path ++ [true])
    | .void => []
    | .unused => []

/-- `CT[s].CLEN <- len(path); CT[s].CBITS <- path` (R150). -/
def recordCode (ct : Vector CodeEntry 256) (c : Sym × List Bool) : Vector CodeEntry 256 :=
  ct.set c.1.toNat { cbits := c.2 } c.1.isLt

/-- `generate_codes()` (R150): all entries cleared, then the codes of the tree under `root` recorded. -/
def generateCodes (nodes : Arena) (root : NodeId) : Vector CodeEntry 256 :=
  (codesFrom nodes maxLevels root.toNat []).foldl recordCode (Vector.replicate 256 CodeEntry.absent)

/-- Code word `k` of a code: bit j of the code at position 31 − (j mod 32) of word j div 32, positions at or beyond
CLEN 0 (R154). -/
def codeWord (bits : List Bool) (k : Nat) : Word := BitVec.ofNat 32 (packMsb 32 (bits.drop (32 * k)))

/-- The code QUERY shows: that of a present symbol in phase BUILT, else none (R155: `clen = 0`). -/
def State.shownCode (s : State) (sym : Sym) : CodeEntry :=
  if s.phase = .built ∧ s.present sym then s.ctAt sym else CodeEntry.absent

/-- RES1 of QUERY: SYM 31:24, RANK 23:16 (0 if absent), 0 15:9, PRESENT 8, CLEN 7:0 (R156). -/
def queryRes1 (s : State) (sym : Sym) : Word :=
  sym ++ (if s.present sym then (s.ftAt sym).rank else 0) ++ (0 : BitVec 7) ++ flagBit (s.present sym) ++
    (s.shownCode sym).clen

/-- The body of QUERY (R155). -/
def queryBody (sym : Sym) (s : State) : Except CmdError State :=
  .ok
    { s with
      res :=
        #v[(s.ftAt sym).count, queryRes1 s sym,
          codeWord (s.shownCode sym).cbits 0, codeWord (s.shownCode sym).cbits 1,
          codeWord (s.shownCode sym).cbits 2, codeWord (s.shownCode sym).cbits 3,
          codeWord (s.shownCode sym).cbits 4, codeWord (s.shownCode sym).cbits 5,
          codeWord (s.shownCode sym).cbits 6, codeWord (s.shownCode sym).cbits 7] }

/-- QUERY s: "reports the frequency entry and the code of one symbol" (R155). -/
def execQuery (sym : Sym) (s : State) : Host.Outcome State Fault Refusal :=
  runCommand (.query sym) (queryBody sym) s

end Sys2Proof.Machine
end

