-- ==== Sys2Proof/Machine/Traversal.lean ====
section
/-! DEFINITION. TRAV_START and TRAV_NEXT (spec/46_traversal.md R185-R189). -/

namespace Sys2Proof.Machine

/-- `inorder(id)` of R185 with each entry's depth: left subtree, node, right subtree. `levels` bounds the descent;
`maxLevels` is never exhausted in a tree. -/
def inorderFrom (nodes : Arena) : (levels id depth : Nat) → List (Nat × Nat)
  | 0, _, _ => []
  | levels + 1, id, depth =>
    match (nodeAt nodes id).kind with
    | .internal =>
      inorderFrom nodes levels (nodeAt nodes id).left.toNat (depth + 1) ++ [(id, depth)] ++
        inorderFrom nodes levels (nodeAt nodes id).right.toNat (depth + 1)
    | .leaf => [(id, depth)]
    | .void => [(id, depth)]
    | .unused => [(id, depth)]

/-- `SEQ = inorder(ROOT)`, each id with its depth (R185). -/
def State.traversal (s : State) : List (Nat × Nat) := inorderFrom s.node maxLevels s.root.toNat 0

/-- The body of TRAV_START: TPOS ← 0 (R186). -/
def travStartBody (s : State) : Except CmdError State := .ok { s with tpos := 0 }

/-- TRAV_START: "restarts the traversal" (R186). -/
def execTravStart (s : State) : Host.Outcome State Fault Refusal := runCommand .travStart travStartBody s

/-- RES1 of an entry: DEPTH 31:24, SYM 23:16 (a leaf's, else 0), END 15 and bit 14 0, KIND 13:12, 0 11:9,
NODE_ID 8:0 (R188). -/
def travRes1 (n : Node) (id depth : Nat) : Word :=
  BitVec.ofNat 8 depth ++ (if n.kind = .leaf then n.sym else 0) ++ (0 : BitVec 2) ++ n.kind.code ++
    (0 : BitVec 3) ++ BitVec.ofNat 9 id

/-- RES1 of the end marker: "END = 1, all other fields 0" (R187). -/
def travEnd : Word := 0x00008000

/-- RES0 and RES1 with RES2-RES9 all 0 (R187). -/
def travResults (res0 res1 : Word) : Vector Word 10 := #v[res0, res1, 0, 0, 0, 0, 0, 0, 0, 0]

/-- SEQ[TPOS] (R187). In a tree SEQ has NNODES entries; past its end, in a state that is no tree, the entry is
(0, 0) (assumption 7). -/
def State.travEntry (s : State) : Nat × Nat := (s.traversal[s.tpos.toNat]?).getD (0, 0)

/-- The body of TRAV_NEXT (R187). -/
def travNextBody (s : State) : Except CmdError State :=
  if s.tpos < s.nnodes then
    .ok
      { s with
        res :=
          travResults (nodeAt s.node s.travEntry.1).freq
            (travRes1 (nodeAt s.node s.travEntry.1) s.travEntry.1 s.travEntry.2)
        tpos := s.tpos + 1 }
  else .ok { s with res := travResults 0 travEnd }

/-- TRAV_NEXT: "returns the next entry of SEQ, or the end marker" (R187). -/
def execTravNext (s : State) : Host.Outcome State Fault Refusal := runCommand .travNext travNextBody s

end Sys2Proof.Machine
end

