-- ==== Sys2Proof/Machine/TreeBuilder.lean ====
section
/-! DEFINITION. BUILD (spec/42_tree_builder.md R130-R141). -/

namespace Sys2Proof.Machine

/-- All symbols, in order of value. -/
def allSyms : List Sym := (List.range 256).map (BitVec.ofNat 8)

/-- "the symbol with FT[s].COUNT > 0 and FT[s].RANK = r" (R130). R42 makes it unique for r < NSYM; in a state that
breaks R42 it is the least such symbol, or 0 (assumption 7). -/
def State.symOfRank (s : State) (r : Nat) : Sym :=
  (allSyms.find? (fun sym => s.present sym && (s.ftAt sym).rank.toNat == r)).getD 0

/-- The leaf of the symbol of rank `r` (R130, R131). -/
def State.leafOfRank (s : State) (r : Nat) : Node :=
  { kind := .leaf, sym := s.symOfRank r, freq := (s.ftAt (s.symOfRank r)).count, left := 0, right := 0 }

/-- NODE after the leaves 0 .. n−1 are stored (R131). -/
def State.placeLeaves (s : State) (n : Nat) : Arena :=
  (List.range n).foldl (fun nodes r => setNode nodes r (s.leafOfRank r)) s.node

/-- The VOID sentinel (R136). -/
def voidNode : Node := { kind := .void, sym := 0, freq := 0, left := 0, right := 0 }

/-- The INTERNAL node with children `a` (left) and `b` (right), FREQ the sum of theirs (R135). -/
def mergedNode (nodes : Arena) (a b : Nat) : Node :=
  { kind := .internal, sym := 0, freq := (nodeAt nodes a).freq + (nodeAt nodes b).freq,
    left := BitVec.ofNat 9 a, right := BitVec.ofNat 9 b }

/-- `key(i) < key(j)`: by FREQ, then by id (R134). -/
def keyLt (nodes : Arena) (i j : Nat) : Bool :=
  decide ((nodeAt nodes i).freq.toNat < (nodeAt nodes j).freq.toNat) ||
    (decide ((nodeAt nodes i).freq = (nodeAt nodes j).freq) && decide (i < j))

/-- "the id in W with the least key(id)" (R130); none if W is empty. -/
def leastKey (nodes : Arena) : List Nat → Option Nat
  | [] => none
  | i :: w =>
    match leastKey nodes w with
    | none => some i
    | some j => if keyLt nodes j i then some j else some i

/-- The loop "while |W| > 1" (R130, R132, R135), at most `merges` times: the arena and the working set it ends with. -/
def mergeLoop : (merges : Nat) → Arena → (w : List Nat) → (next : Nat) → Arena × List Nat
  | 0, nodes, w, _ => (nodes, w)
  | merges + 1, nodes, w, next =>
    match leastKey nodes w with
    | none => (nodes, w)
    | some a =>
      match leastKey nodes (w.erase a) with
      | none => (nodes, w)
      | some b =>
        mergeLoop merges (setNode nodes next (mergedNode nodes a b)) (((w.erase a).erase b) ++ [next]) (next + 1)

/-- A built tree: NODE, ROOT and NNODES. -/
structure Tree where
  nodes : Arena
  root : NodeId
  nnodes : BitVec 10
  deriving DecidableEq, Repr

/-- The tree of a corpus with one distinct symbol: the leaf wrapped beside VOID (R136). -/
def State.oneSymbolTree (s : State) : Tree :=
  let leaves := s.placeLeaves 1
  { nodes := setNode (setNode leaves 1 voidNode) 2 (mergedNode (setNode leaves 1 voidNode) 0 1),
    root := 2, nnodes := 3 }

/-- The tree of `n` distinct symbols by repeated merging: ROOT is "the single id in W" and NNODES = 2n − 1 (R130). -/
def State.mergedTree (s : State) (n : Nat) : Tree :=
  let r := mergeLoop n (s.placeLeaves n) (List.range n) n
  { nodes := r.1, root := BitVec.ofNat 9 (r.2.headD 0), nnodes := BitVec.ofNat 10 (2 * n - 1) }

/-- The tree BUILD makes from FT (R130). -/
def State.builtTree (s : State) : Tree :=
  if s.nsym = 1 then s.oneSymbolTree else s.mergedTree s.nsym.toNat

/-- The body of BUILD (R130): the tree, then its code table, TPOS 0, phase BUILT. -/
def buildBody (s : State) : Except CmdError State :=
  .ok
    { s with
      node := s.builtTree.nodes
      root := s.builtTree.root
      nnodes := s.builtTree.nnodes
      ct := generateCodes s.builtTree.nodes s.builtTree.root
      tpos := 0
      phase := .built }

/-- BUILD: "builds the Huffman tree from FT and then the code table from the tree" (R130). -/
def execBuild (s : State) : Host.Outcome State Fault Refusal := runCommand .build buildBody s

end Sys2Proof.Machine
end

