-- ==== Sys2Proof/Machine/Dispatch.lean ====
section
/-! DEFINITION. The meaning of each command (spec/30_encoding.md R82; spec/40_control.md R102): one arm per
constructor of Instr. -/

namespace Sys2Proof.Machine

def exec (i : Instr) (s : State) : Host.Outcome State Fault Refusal :=
  match i with
  | .nop => Sys2Proof.Machine.execNop s
  | .clear => Sys2Proof.Machine.execClear s
  | .count => Sys2Proof.Machine.execCount s
  | .build => Sys2Proof.Machine.execBuild s
  | .encode fmt => Sys2Proof.Machine.execEncode fmt s
  | .decode fmt => Sys2Proof.Machine.execDecode fmt s
  | .travStart => Sys2Proof.Machine.execTravStart s
  | .travNext => Sys2Proof.Machine.execTravNext s
  | .query sym => Sys2Proof.Machine.execQuery sym s

end Sys2Proof.Machine
end

