-- ==== Sys2Proof/Machine/Engine.lean ====
section
/-! DEFINITION. What one step does: the engine runs the accepted command (spec/40_control.md R102, as one atomic step,
spec/00_scope.md R16), or a host event takes effect. -/

namespace Sys2Proof.Machine

/-- The engine runs the latched command from decode to completion (R102). -/
def engineRun (s : State) : Host.Outcome State Fault Refusal :=
  match decodeWord s.lcmd with
  | .ok i => exec i s
  | .error _ => illegalCommand s

/-- The running command, if there is one, completes; an idle engine does nothing (R223). -/
def engineTurn (s : State) : Host.Outcome State Fault Refusal := if s.busy then engineRun s else .next s

/-- An access answered in the cycle in which the running command completes (R27): the access sees BUSY = 1 and "the
completion wins", so the access takes effect first. On an idle block it is a plain access. -/
def accessThenComplete (a : BusAccess) (s : State) : Host.Outcome State Fault Refusal :=
  if s.busy then
    match hostAccess a s with
    | .next t => engineTurn t
    | .fault r => .fault r
    | .refused r => .refused r
  else hostAccess a s

/-- One host event takes effect. -/
def hostEvent (e : HostEvent) (s : State) : Host.Outcome State Fault Refusal :=
  match e with
  | .access a => hostAccess a s
  | .complete => engineTurn s
  | .accessAtCompletion a => accessThenComplete a s
  | .reset => .next s.hardReset
  | .resetDuring _ => .fault .resetOverlap

/-- The state in which the step's event takes effect: it is off the list, and the answer of the step before is
over (R37: "for one cycle"). -/
def State.takeEvent (s : State) : State := { s with events := s.events.tail, answer := none }

/-- The command word `w` accepted, and the engine's turn next. -/
def State.offerWord (s : State) (w : Word) : State := { s.accept w with events := .complete :: s.events }

end Sys2Proof.Machine
end

