-- ==== Sys2Proof/Machine/Step.lean ====
section
/-! DEFINITION. One step of the machine, and where it takes its next command from (spec/00_scope.md R16). -/

namespace Sys2Proof.Machine

/-- One step: the oldest host event takes effect, or, with none left, the engine has its turn (R16, R246). -/
def step (s : State) : Host.Outcome State Fault Refusal :=
  match s.events with
  | [] => engineTurn s.takeEvent
  | e :: _ => hostEvent e s.takeEvent

/-- The block fetches nothing: its next command is the word latched at acceptance (R3, R21, R38). This is `s` just
after the host's write of the word to CMD was accepted, with the engine's turn next, so the next step runs it. -/
def State.withFetchWord (s : State) (nbits w : Nat) : State := s.offerWord (tableWord nbits w)

end Sys2Proof.Machine
end

