-- ==== Sys2Proof/WellFormed.lean ====
section
/-! DEFINITION. The checks the spec makes on a command word (spec/30_encoding.md R81-R86) and on the parameters
(spec/00_scope.md R8); those on a bus access are in Machine/Bus.lean (spec/20_memory.md R61, R62).
The operands of `Instr` are typed to their exact range (one bit of FMT, eight of SYM), so every term of `Instr` is
well-formed. -/

namespace Sys2Proof

/-! ## Command words -/

/-- "Opcodes 0x09 to 0xFF are reserved" (R86). -/
def opcodeDefined (w : Word) : Bool := decide ((fieldOpc w).toNat ≤ 8)
/-- RSV "must be 0" (R85). -/
def rsvClear (w : Word) : Bool := fieldRsv w == 0
/-- FMT is "used by ENCODE and DECODE only, must be 0 otherwise" (R81, R83). -/
def fmtAllowed (w : Word) : Bool := fieldFmt w == 0 || fieldOpc w == 4 || fieldOpc w == 5
/-- SYM is "used by QUERY only, must be 0 otherwise" (R81, R84). -/
def symAllowed (w : Word) : Bool := fieldSym w == 0 || fieldOpc w == 8

/-- A command word that R85 and R86 do not call illegal. -/
def commandWordLegal (w : Word) : Bool := opcodeDefined w && rsvClear w && fmtAllowed w && symAllowed w

/-- Every term of `Instr` is well-formed: its operands hold exactly the values the fields admit. -/
def Instr.wellFormed : Instr → Bool
  | .nop => true
  | .clear => true
  | .count => true
  | .build => true
  | .encode _ => true
  | .decode _ => true
  | .travStart => true
  | .travNext => true
  | .query _ => true

/-! ## Parameters -/

/-- The legal values of the parameters: 1 ≤ size ≤ 65536 (R8). -/
def Params.legal (p : Params) : Bool :=
  decide (1 ≤ p.ibufSize) && decide (p.ibufSize ≤ 65536) && decide (1 ≤ p.obufSize) && decide (p.obufSize ≤ 65536)

end Sys2Proof
end

