-- ==== Sys2Proof/Safety.lean ====
section
/-! DEFINITION. What counts as a safe run, the invariants of the block's tables (spec/10_state.md R42, R45-R47), and
the reference notions the claims are stated with. None of these is used by the machine. -/

namespace Sys2Proof.Machine

/-! ## Safe host behaviour -/

/-- A legal write that reaches a byte of IBUF (R237) or names LEN or BITLEN (R238). -/
def BusAccess.writesOperand (p : Params) (a : BusAccess) : Bool :=
  a.legal && a.we &&
    ((a.region == .ibufWindow && decide (a.offset < p.ibufSize)) ||
      (a.region == .registers && (a.offset == 0x014 || a.offset == 0x018)))

/-- The events the spec gives no meaning: an operand written while BUSY = 1 (R237, R238), and an access that overlaps
reset (R234). -/
def HostEvent.hazard (s : State) : HostEvent → Bool
  | .access a => s.busy && BusAccess.writesOperand s.params a
  | .accessAtCompletion a => s.busy && BusAccess.writesOperand s.params a
  | .resetDuring _ => true
  | .complete => false
  | .reset => false

/-- A step is safe if the event it takes is no hazard. -/
def State.safe (s : State) : Bool :=
  match s.events with
  | [] => true
  | e :: _ => !e.hazard s

/-! ## Invariants -/

/-- The buffers' canonical form, and that OBUF's background was drawn before now. -/
structure State.BufferInv (s : State) : Prop where
  ibuf_wf : Memory.wf s.params.ibufSize s.ibuf = true
  obuf_wf : Memory.wf s.params.obufSize s.obuf = true
  drawn_before : s.obufDraw < s.draws

/-- While a command runs DONE and ERRCODE are 0: acceptance clears them (R100) and only completion sets them. -/
structure State.StatusInv (s : State) : Prop where
  busy_done : s.busy = true → s.done = false
  busy_errCode : s.busy = true → s.errCode = .none

/-- TPOS counts the entries returned: at most NNODES (R187) and, outside phase BUILT, 0 (R39). -/
structure State.IteratorInv (s : State) : Prop where
  built_le : s.phase = .built → s.tpos.toNat ≤ s.nnodes.toNat
  unbuilt_zero : s.phase ≠ .built → s.tpos = 0

/-- The symbols present in FT. -/
def State.presentSyms (s : State) : List Sym := allSyms.filter s.present

/-- The invariants of FT (R42). -/
structure State.FreqInv (s : State) : Prop where
  /-- NSYM = the number of present symbols -/
  nsym_eq : s.nsym.toNat = s.presentSyms.length
  /-- TOTAL = the sum of the counts -/
  total_eq : s.total.toNat = (allSyms.map fun sym => (s.ftAt sym).count.toNat).sum
  /-- every rank of a present symbol is below NSYM -/
  rank_lt : ∀ sym, s.present sym = true → (s.ftAt sym).rank.toNat < s.nsym.toNat
  /-- every number below NSYM is the rank of a present symbol -/
  rank_hit : ∀ r < s.nsym.toNat, ∃ sym, s.present sym = true ∧ (s.ftAt sym).rank.toNat = r
  /-- PHASE = EMPTY exactly when NSYM = 0 -/
  empty_iff : s.phase = .empty ↔ s.nsym = 0

/-- The INTERNAL nodes in use that have `id` as a child. -/
def State.parentsOf (s : State) (id : Nat) : List Nat :=
  (List.range s.nnodes.toNat).filter fun p =>
    (nodeAt s.node p).kind == .internal &&
      ((nodeAt s.node p).left.toNat == id || (nodeAt s.node p).right.toNat == id)

/-- The invariants of the tree (R45) with the contents of each kind of node (R44). -/
structure State.TreeShape (s : State) : Prop where
  /-- n = 1: three nodes, the leaf, VOID and the root -/
  one : s.nsym = 1 → s.nnodes = 3 ∧ s.root = 2 ∧ nodeAt s.node 1 = voidNode ∧
    (nodeAt s.node 2).kind = .internal ∧ (nodeAt s.node 2).left = 0 ∧ (nodeAt s.node 2).right = 1
  /-- n ≥ 2: 2n − 1 nodes, the root last -/
  many : 2 ≤ s.nsym.toNat → s.nnodes.toNat = 2 * s.nsym.toNat - 1 ∧ s.root.toNat = 2 * s.nsym.toNat - 2
  /-- n ≥ 2: ids n .. 2n−2 are INTERNAL -/
  internal : 2 ≤ s.nsym.toNat → ∀ id < s.nnodes.toNat, s.nsym.toNat ≤ id → (nodeAt s.node id).kind = .internal
  /-- the leaf with id r holds the symbol of rank r and its count -/
  leaf : ∀ sym, s.present sym = true → nodeAt s.node (s.ftAt sym).rank.toNat =
    { kind := .leaf, sym := sym, freq := (s.ftAt sym).count, left := 0, right := 0 }
  /-- an INTERNAL node's children are two nodes of smaller ids, and its FREQ is their sum -/
  children : ∀ id < s.nnodes.toNat, (nodeAt s.node id).kind = .internal →
    (nodeAt s.node id).left.toNat < id ∧ (nodeAt s.node id).right.toNat < id ∧
    (nodeAt s.node id).left ≠ (nodeAt s.node id).right ∧ (nodeAt s.node id).sym = 0 ∧
    (nodeAt s.node id).freq.toNat =
      (nodeAt s.node (nodeAt s.node id).left.toNat).freq.toNat +
        (nodeAt s.node (nodeAt s.node id).right.toNat).freq.toNat
  /-- every node in use other than the root is the child of exactly one INTERNAL node -/
  oneParent : ∀ id < s.nnodes.toNat, id ≠ s.root.toNat → (s.parentsOf id).length = 1
  /-- NODE[ROOT].FREQ = TOTAL -/
  rootFreq : (nodeAt s.node s.root.toNat).freq = s.total

/-- The tree is as R45 says whenever it is valid. -/
def State.TreeInv (s : State) : Prop := s.phase = .built → s.TreeShape

/-- The node reached from `id` by a path of bits through INTERNAL nodes, if the path exists. -/
def follow (nodes : Arena) : (id : Nat) → List Bool → Option Nat
  | id, [] => some id
  | id, b :: bits =>
    if (nodeAt nodes id).kind = .internal then
      follow nodes (if b then (nodeAt nodes id).right.toNat else (nodeAt nodes id).left.toNat) bits
    else none

/-- The code table holds the tree's paths: a present symbol's code leads from ROOT to its leaf and has 1 to 255 bits,
an absent symbol has none (R46, R150, R153). -/
structure State.CodePaths (s : State) : Prop where
  path : ∀ sym, s.present sym = true → follow s.node s.root.toNat (s.ctAt sym).cbits = some (s.ftAt sym).rank.toNat
  length : ∀ sym, s.present sym = true → 1 ≤ (s.ctAt sym).length ∧ (s.ctAt sym).length ≤ 255
  absent : ∀ sym, s.present sym = false → s.ctAt sym = CodeEntry.absent

/-- The code table is the tree's whenever it is valid. -/
def State.CodeInv (s : State) : Prop := s.phase = .built → s.CodePaths

/-- FT, the tree and the code table are what a run can leave. -/
structure State.TablesInv (s : State) : Prop where
  params : s.params.legal = true
  freq : s.FreqInv
  tree : s.TreeInv
  code : s.CodeInv

/-- What the engine runs a command in: everything a run can leave. -/
structure State.RunInv (s : State) : Prop where
  tables : s.TablesInv
  buffers : s.BufferInv
  status : s.StatusInv
  iterator : s.IteratorInv

/-! ## Reference notions -/

/-- The concatenation of the codes of the bytes, in order: the bitstream of R160. -/
def State.codeStream (s : State) (data : List Byte) : List Bool := data.flatMap fun b => (s.ctAt b).cbits

/-- The input of a DECODE reads as these bits, from index `k` on (R171). -/
def State.readsBits (s : State) (fmt : Fmt) (bits : List Bool) : Prop :=
  ∀ k (h : k < bits.length), s.inputBit fmt k = .ok bits[k]

/-- IBUF holds these bytes from index 0. -/
def State.ibufHolds (s : State) (data : List Byte) : Prop := ∀ i (h : i < data.length), s.ibufByte i = data[i]

/-- OBUF holds these bytes from index 0. -/
def State.obufHolds (s : State) (data : List Byte) : Prop := ∀ i (h : i < data.length), s.obufByte i = data[i]

/-- RES`k` (R34); there is none past RES9. -/
def State.resAt (s : State) (k : Nat) : Word := s.res[k]?.getD 0

/-- `key(i) < key(j)`, lexicographically by frequency and id (R134). -/
def State.keyBefore (s : State) (i j : Nat) : Prop :=
  (nodeAt s.node i).freq.toNat < (nodeAt s.node j).freq.toNat ∨
    ((nodeAt s.node i).freq.toNat = (nodeAt s.node j).freq.toNat ∧ i < j)

/-- The node at the end of path `p` comes before that of path `q` in "left-subtree-then-node-then-right-subtree
order" (R185). -/
def inOrderBefore : (p q : List Bool) → Prop
  | [], [] => False
  | [], b :: _ => b = true
  | a :: _, [] => a = false
  | a :: p, b :: q => if a = b then inOrderBefore p q else a = false

/-- Node `x` is in the working set when node `k` is created: it is older than `k` and no older INTERNAL node has
it as a child (R132). -/
def State.waiting (s : State) (k x : Nat) : Prop :=
  x < k ∧ ∀ p < k, (nodeAt s.node p).kind = .internal →
    (nodeAt s.node p).left.toNat ≠ x ∧ (nodeAt s.node p).right.toNat ≠ x

/-- The original selection strategy of R139: a list, sorted by FREQ with a stable sort before every selection, whose
first two elements are taken, and the new node appended at its end. -/
def sortedMergeLoop : (merges : Nat) → Arena → (w : List Nat) → (next : Nat) → Arena × List Nat
  | 0, nodes, w, _ => (nodes, w)
  | merges + 1, nodes, w, next =>
    match w.mergeSort (fun i j => decide ((nodeAt nodes i).freq.toNat ≤ (nodeAt nodes j).freq.toNat)) with
    | a :: b :: rest => sortedMergeLoop merges (setNode nodes next (mergedNode nodes a b)) (rest ++ [next]) (next + 1)
    | _ => (nodes, w)

/-- The effect of a failed completion on the status (R104): the error's code and position, BUSY 0, DONE 1. -/
def State.failedWith (t : State) (code : ErrCode) (info : Word) : Prop :=
  t.errCode = code ∧ t.errpos = info ∧ t.busy = false ∧ t.done = true

/-- A successful completion's status (R103), as seen from the state the command began in. -/
def State.succeededFrom (t s : State) : Prop :=
  t.errCode = s.errCode ∧ t.errpos = 0 ∧ t.busy = false ∧ t.done = true

end Sys2Proof.Machine
end

