-- ==== Sys2Proof/Certificates/Slice0/Obligations.lean ====
section
/-! DEFINITION. The statements for the provers. Each docstring names the rule of spec/ it formalises or rests on. -/

open Sys2Proof Sys2Proof.Machine

/-! ## Encoding -/

/-- R80-R88: a word decodes to a command exactly when it is that command's encoding, so no bit of an encoding is
dropped and no other word is accepted. -/
def Obligations.DecodeAcceptsExactlyEncodedWords : Prop :=
  (∀ i, decodeWord (encodeWord i) = .ok i) ∧ ∀ w i, decodeWord w = .ok i → encodeWord i = w

/-- R82: "A word w spells command c exactly when (w AND mask_c) = match_c", with the operand fields of R83 and R84,
and "No two rows match the same word". -/
def Obligations.DecodeMatchesOpcodeMap : Prop :=
  ∀ w : Word,
    (decodeWord w = .ok .nop ↔ w &&& 0xFFFFFFFF = 0x00000000) ∧
    (decodeWord w = .ok .clear ↔ w &&& 0xFFFFFFFF = 0x00000001) ∧
    (decodeWord w = .ok .count ↔ w &&& 0xFFFFFFFF = 0x00000002) ∧
    (decodeWord w = .ok .build ↔ w &&& 0xFFFFFFFF = 0x00000003) ∧
    (∀ fmt, decodeWord w = .ok (.encode fmt) ↔
      w &&& 0xFFFEFFFF = 0x00000004 ∧ (fmt = .ascii ↔ w.getLsbD 16 = true)) ∧
    (∀ fmt, decodeWord w = .ok (.decode fmt) ↔
      w &&& 0xFFFEFFFF = 0x00000005 ∧ (fmt = .ascii ↔ w.getLsbD 16 = true)) ∧
    (decodeWord w = .ok .travStart ↔ w &&& 0xFFFFFFFF = 0x00000006) ∧
    (decodeWord w = .ok .travNext ↔ w &&& 0xFFFFFFFF = 0x00000007) ∧
    (∀ sym, decodeWord w = .ok (.query sym) ↔
      w &&& 0xFFFF00FF = 0x00000008 ∧ sym = w.extractLsb' 8 8)

/-- R85, R86: the illegal words are those with a reserved opcode, a bit of RSV set, FMT = 1 where it is not used or
SYM ≠ 0 where it is not used. -/
def Obligations.IllegalWordsAreExactlyThese : Prop :=
  ∀ w : Word,
    (∃ r, decodeWord w = .error r) ↔
      (0x09 ≤ (w.extractLsb' 0 8).toNat ∨ w.extractLsb' 17 15 ≠ 0 ∨
        (w.getLsbD 16 = true ∧ w.extractLsb' 0 8 ≠ 0x04 ∧ w.extractLsb' 0 8 ≠ 0x05) ∨
        (w.extractLsb' 8 8 ≠ 0 ∧ w.extractLsb' 0 8 ≠ 0x08))

/-- R89: words written out from the spec decode to the commands they stand for. -/
def Obligations.SampleWordsDecode : Prop :=
  decodeWord 0x00000000 = .ok .nop ∧
  decodeWord 0x00000001 = .ok .clear ∧
  decodeWord 0x00000002 = .ok .count ∧
  decodeWord 0x00000003 = .ok .build ∧
  decodeWord 0x00000004 = .ok (.encode .packed) ∧
  decodeWord 0x00010004 = .ok (.encode .ascii) ∧
  decodeWord 0x00000005 = .ok (.decode .packed) ∧
  decodeWord 0x00010005 = .ok (.decode .ascii) ∧
  decodeWord 0x00000006 = .ok .travStart ∧
  decodeWord 0x00000007 = .ok .travNext ∧
  decodeWord 0x00006108 = .ok (.query 0x61)

/-! ## The life of a command -/

/-- R102, R16: where a command is latched and the engine's turn is next, a step is `exec` of the command it decodes
to, with the event taken off the list and the answer of the step before over; an idle engine changes nothing else
(R223). The list of events and the event `complete` are the model's form of what the host does (assumption 4). -/
def Obligations.StepRunsTheAcceptedCommand : Prop :=
  ∀ s : State, (s.events = [] ∨ s.events.head? = some .complete) →
    (∀ i, s.busy = true → decodeWord s.lcmd = .ok i →
      step s = exec i { s with events := s.events.tail, answer := none }) ∧
    (s.busy = false → step s = .next { s with events := s.events.tail, answer := none })

/-- R206: an accepted word that spells no command completes with ILLEGAL_COMMAND (code 6) and ERRPOS = LCMD, and no
state other than the status changes, whatever its opcode bits and the phase. The clauses on `events` and `answer` are
about the model's own form of the bus (assumption 4). -/
def Obligations.IllegalWordCompletesWithIllegalCommand : Prop :=
  ∀ (s : State) (r : IllegalWord), (s.events = [] ∨ s.events.head? = some .complete) →
    s.busy = true → decodeWord s.lcmd = .error r →
    ∃ t, step s = .next t ∧
      t = { s with events := s.events.tail, answer := none, errCode := .illegalCommand, errpos := s.lcmd,
                   busy := false, done := true } ∧
      t.statusWord.extractLsb' 8 4 = 6

/-- R105, R246: every command completes from every state: BUSY 0, DONE 1, so irq is high exactly if IE = 1. -/
def Obligations.EveryCommandCompletes : Prop :=
  ∀ (i : Instr) (s : State), ∃ t, exec i s = .next t ∧ t.busy = false ∧ t.done = true ∧ t.irq = s.ie

/-- R100, R245, R246: a word written to CMD of an idle block is accepted in one step and, with no other host event
pending, completes in the next. The event `access` is the model's form of a bus access (assumption 4). -/
def Obligations.AcceptedCommandRunsToCompletion : Prop :=
  ∀ (s : State) (w : Word), s.busy = false → s.events = [.access ⟨true, 2, 0x00008, w⟩] →
    ∃ t u, step s = .next t ∧ t.busy = true ∧ t.done = false ∧ t.errCode = .none ∧ t.lcmd = w ∧
      step t = .next u ∧ u.busy = false ∧ u.done = true

/-- R234, R237, R238 (U5, U6, U7), R60: a step answers a next state unless the event it takes is a hazard, never a
refusal, and each fault is the one the spec names. The events are the model's form of what the host does, the faults
its form of the hazards (assumptions 4 and 12). That a write past IBUF_SIZE while BUSY = 1 is no hazard is the
model's reading of R60 (assumption 13), and that an operand write in the cycle in which the command completes is one
is its order of that cycle (assumption 11). -/
def Obligations.StepStopsExactlyOnHazards : Prop :=
  ∀ s : State,
    ((∃ t, step s = .next t) ↔ s.safe = true) ∧ (∀ r, step s ≠ .refused r) ∧
    (step s = .fault .resetOverlap ↔ ∃ a es, s.events = .resetDuring a :: es) ∧
    (step s = .fault .hostHazard ↔
      s.busy = true ∧ ∃ a es, (s.events = .access a :: es ∨ s.events = .accessAtCompletion a :: es) ∧
        BusAccess.writesOperand s.params a = true)

/-! ## Errors -/

/-- R207: ENCODE, DECODE, TRAV_START and TRAV_NEXT without a tree raise SEQUENCE_ERROR (code 7) with ERRPOS = LCMD;
ENCODE and DECODE also clear OUT_LEN and OUT_BITS; OBUF and everything else is unchanged. -/
def Obligations.SequenceErrorWithoutTree : Prop :=
  ErrCode.sequenceError.code = 7 ∧
  ∀ s : State, s.phase ≠ .built →
    (∀ fmt, exec (.encode fmt) s = .next { s with outLen := 0, outBits := 0, errCode := .sequenceError, errpos := s.lcmd,
                                                  busy := false, done := true }) ∧
    (∀ fmt, exec (.decode fmt) s = .next { s with outLen := 0, outBits := 0, errCode := .sequenceError, errpos := s.lcmd,
                                                  busy := false, done := true }) ∧
    exec .travStart s = .next { s with errCode := .sequenceError, errpos := s.lcmd, busy := false, done := true } ∧
    exec .travNext s = .next { s with errCode := .sequenceError, errpos := s.lcmd, busy := false, done := true }

/-- R202: COUNT and BUILD in phase BUILT raise BUILD_ERROR (code 2) with ERRPOS = LCMD, and nothing else changes. -/
def Obligations.BuildErrorOnceBuilt : Prop :=
  ErrCode.buildError.code = 2 ∧
  ∀ s : State, s.phase = .built →
    exec .count s = .next { s with errCode := .buildError, errpos := s.lcmd, busy := false, done := true } ∧
    exec .build s = .next { s with errCode := .buildError, errpos := s.lcmd, busy := false, done := true }

/-- R201: BUILD in phase EMPTY raises EMPTY_INPUT (code 1) with ERRPOS = 0, and the phase stays EMPTY. -/
def Obligations.EmptyInputAtBuild : Prop :=
  ErrCode.emptyInput.code = 1 ∧
  ∀ s : State, s.phase = .empty →
    ∃ t, exec .build s = .next t ∧ t.phase = .empty ∧
      t = { s with errCode := .emptyInput, errpos := 0, busy := false, done := true }

/-- R104, R211: a failed command leaves every table, the phase, the iterator and RES as they were; a failed ENCODE or
DECODE leaves OUT_LEN = OUT_BITS = 0 and, if the error is one of the input scan, every byte of OBUF unspecified, else
OBUF unchanged; any other failed command leaves all three unchanged. An unspecified byte is the free value of a fresh
draw (assumption 8); that CUR and START are among the discarded writes is the model's reading (assumption 10). -/
def Obligations.FailedCommandDiscardsItsWrites : Prop :=
  ∀ (i : Instr) (s t : State), s.errCode = .none → exec i s = .next t → t.errCode ≠ .none →
    t.ft = s.ft ∧ t.nsym = s.nsym ∧ t.total = s.total ∧ t.phase = s.phase ∧ t.node = s.node ∧ t.nnodes = s.nnodes ∧
    t.root = s.root ∧ t.ct = s.ct ∧ t.tpos = s.tpos ∧ t.res = s.res ∧ t.cur = s.cur ∧ t.start = s.start ∧
    t.busy = false ∧ t.done = true ∧
    (i.isCodec = true → t.outLen = 0 ∧ t.outBits = 0) ∧
    (i.isCodec = false → t.outLen = s.outLen ∧ t.outBits = s.outBits ∧ ∀ a, t.obufByte a = s.obufByte a) ∧
    (t.errCode = .unknownSymbol ∨ t.errCode = .invalidBit ∨ t.errCode = .truncatedStream ∨
        (i.isCodec = true ∧ t.errCode = .capacityError ∧ t.errpos ≠ 0xFFFFFFFF) →
      ∀ a, t.obufByte a = Config.freeObuf s.draws a) ∧
    (t.errCode = .sequenceError ∨ (t.errCode = .capacityError ∧ t.errpos = 0xFFFFFFFF) →
      ∀ a, t.obufByte a = s.obufByte a)

/-- R53 with R28, R29, R63 and R76: what each command leaves unchanged, whether it succeeds or fails. ENCODE and
DECODE that succeed store to OBUF bytes 0 .. OUT_LEN−1 only. That NODE, NNODES, ROOT and CT stay when CLEAR makes them
invalid is the model's choice (assumption 9). -/
def Obligations.CommandFrame : Prop :=
  ∀ (i : Instr) (s t : State), s.params.legal = true → exec i s = .next t →
    t.params = s.params ∧ t.events = s.events ∧ t.answer = s.answer ∧ t.cmdOvr = s.cmdOvr ∧ t.ie = s.ie ∧
    t.len = s.len ∧ t.bitlen = s.bitlen ∧ t.lcmd = s.lcmd ∧ (∀ a, t.ibufByte a = s.ibufByte a) ∧
    (i ≠ .clear → i ≠ .count → t.ft = s.ft ∧ t.nsym = s.nsym ∧ t.total = s.total) ∧
    (i ≠ .clear → i ≠ .count → i ≠ .build → t.phase = s.phase) ∧
    (i ≠ .build → t.node = s.node ∧ t.nnodes = s.nnodes ∧ t.root = s.root ∧ t.ct = s.ct) ∧
    (i ≠ .clear → i ≠ .build → i ≠ .travStart → i ≠ .travNext → t.tpos = s.tpos) ∧
    (i ≠ .clear → i ≠ .travNext → (∀ sym, i ≠ .query sym) → t.res = s.res) ∧
    (i ≠ .clear → i.isCodec = false → t.outLen = s.outLen ∧ t.outBits = s.outBits) ∧
    ((∀ fmt, i ≠ .decode fmt) → t.cur = s.cur ∧ t.start = s.start) ∧
    (i.isCodec = false → ∀ a, t.obufByte a = s.obufByte a) ∧
    (i.isCodec = true → s.errCode = .none → t.errCode = .none → ∀ a, t.outLen.toNat ≤ a → t.obufByte a = s.obufByte a)

/-! ## NOP, CLEAR and COUNT -/

/-- R106, R103: NOP succeeds in every state and writes nothing but ERRPOS 0, BUSY 0, DONE 1. -/
def Obligations.NopOnlyCompletes : Prop :=
  ∀ s : State, exec .nop s = .next { s with errpos := 0, busy := false, done := true }

/-- R107: CLEAR succeeds in every state: FT, NSYM, TOTAL, TPOS, OUT_LEN, OUT_BITS and RES0-RES9 are 0, the phase is
EMPTY, and LEN, BITLEN, CTRL, CMD_OVR, IBUF and OBUF are unchanged. -/
def Obligations.ClearEmptiesTables : Prop :=
  ∀ s : State, ∃ t, exec .clear s = .next t ∧ t.succeededFrom s ∧
    (∀ sym, (t.ftAt sym).count = 0 ∧ (t.ftAt sym).rank = 0) ∧
    t.nsym = 0 ∧ t.total = 0 ∧ t.phase = .empty ∧ t.tpos = 0 ∧ t.outLen = 0 ∧ t.outBits = 0 ∧
    (∀ k, t.resAt k = 0) ∧
    t.len = s.len ∧ t.bitlen = s.bitlen ∧ t.ie = s.ie ∧ t.cmdOvr = s.cmdOvr ∧
    (∀ a, t.ibufByte a = s.ibufByte a) ∧ (∀ a, t.obufByte a = s.obufByte a)

/-- R120: where the lengths fit and the tree is not built, COUNT adds to each symbol's count its occurrences among the
input bytes, to TOTAL their number, NSYM is the number of present symbols, and the phase is COLLECT if there is one. -/
def Obligations.CountAddsOccurrences : Prop :=
  ∀ (s : State) (data : List Byte), s.FreqInv → s.phase ≠ .built → s.ibufHolds data → data.length = s.len.toNat →
    s.len.toNat ≤ s.params.ibufSize → s.total.toNat + s.len.toNat ≤ 2 ^ 32 - 1 →
    ∃ t, exec .count s = .next t ∧ t.succeededFrom s ∧
      (∀ b, (t.ftAt b).count.toNat = (s.ftAt b).count.toNat + data.count b) ∧
      t.total.toNat = s.total.toNat + data.length ∧
      t.nsym.toNat = t.presentSyms.length ∧
      t.phase = (if t.nsym = 0 then .empty else .collect)

/-- R121: a symbol counted before keeps its rank; one counted for the first time takes the number of distinct symbols
counted before it, earlier in the corpus or earlier in this input. -/
def Obligations.CountAssignsRanksByFirstOccurrence : Prop :=
  ∀ (s : State) (data : List Byte), s.FreqInv → s.phase ≠ .built → s.ibufHolds data → data.length = s.len.toNat →
    s.len.toNat ≤ s.params.ibufSize → s.total.toNat + s.len.toNat ≤ 2 ^ 32 - 1 →
    ∃ t, exec .count s = .next t ∧
      (∀ b, s.present b = true → (t.ftAt b).rank = (s.ftAt b).rank) ∧
      ∀ b ∈ data, s.present b = false →
        (t.ftAt b).rank.toNat =
          s.nsym.toNat + ((data.takeWhile (fun x => x != b)).filter (fun x => !s.present x)).dedup.length

/-- R122: from any frequency table a run can leave (R42), counting a chunk of m bytes and then one of n bytes leaves
the FT, NSYM, TOTAL and phase of counting their concatenation in one command. -/
def Obligations.CountInChunksEqualsOneCount : Prop :=
  ∀ (s u t₁ : State) (m n : Nat), s.FreqInv → s.params.legal = true → s.phase ≠ .built → m + n ≤ s.params.ibufSize →
    s.total.toNat + (m + n) ≤ 2 ^ 32 - 1 →
    exec .count { s with len := BitVec.ofNat 32 m } = .next t₁ →
    u.params = t₁.params → u.ft = t₁.ft → u.nsym = t₁.nsym → u.total = t₁.total → u.phase = t₁.phase →
    u.len = BitVec.ofNat 32 n → (∀ i < n, u.ibufByte i = s.ibufByte (m + i)) →
    ∃ t₂ t, exec .count u = .next t₂ ∧ exec .count { s with len := BitVec.ofNat 32 (m + n) } = .next t ∧
      t₂.ft = t.ft ∧ t₂.nsym = t.nsym ∧ t₂.total = t.total ∧ t₂.phase = t.phase

/-- R120: COUNT of a length that exceeds IBUF, or that takes the corpus beyond 2^32 − 1 symbols, raises CAPACITY_ERROR
(code 8) with ERRPOS 0xFFFFFFFF and counts nothing. -/
def Obligations.CountCapacityError : Prop :=
  ErrCode.capacityError.code = 8 ∧
  ∀ s : State, s.phase ≠ .built →
    (s.params.ibufSize < s.len.toNat ∨ 2 ^ 32 - 1 < s.total.toNat + s.len.toNat) →
    exec .count s = .next { s with errCode := .capacityError, errpos := 0xFFFFFFFF, busy := false, done := true }

/-! ## BUILD, the code table and QUERY -/

/-- R130, R131, R138: from any frequency table a run can leave, BUILD in COLLECT succeeds, and leaves the tree R45
describes, TPOS 0, phase BUILT and FT as it was. -/
def Obligations.BuildYieldsTree : Prop :=
  ∀ s : State, s.FreqInv → s.phase = .collect →
    ∃ t, exec .build s = .next t ∧ t.succeededFrom s ∧ t.phase = .built ∧ t.tpos = 0 ∧ t.ft = s.ft ∧
      t.nsym = s.nsym ∧ t.total = s.total ∧ t.TreeShape

/-- R132, R134, R135: each INTERNAL node's LEFT child has the least key of the nodes waiting when it was created, and
its RIGHT child the least key of the rest. -/
def Obligations.BuildSelectsLeastKeys : Prop :=
  ∀ s : State, s.FreqInv → s.phase = .collect → 2 ≤ s.nsym.toNat →
    ∃ t, exec .build s = .next t ∧
      ∀ k, s.nsym.toNat ≤ k → k < t.nnodes.toNat →
        t.waiting k (nodeAt t.node k).left.toNat ∧ t.waiting k (nodeAt t.node k).right.toNat ∧
        t.keyBefore (nodeAt t.node k).left.toNat (nodeAt t.node k).right.toNat ∧
        ∀ x, t.waiting k x → x ≠ (nodeAt t.node k).left.toNat → x ≠ (nodeAt t.node k).right.toNat →
          t.keyBefore (nodeAt t.node k).right.toNat x

/-- R139: BUILD's selections are those of the original strategy: a list that starts as the leaves in rank order, is
sorted by FREQ with a stable sort before every selection, has its first two elements removed and the new node
appended. -/
def Obligations.BuildAgreesWithStableSort : Prop :=
  ∀ s : State, s.FreqInv → s.phase = .collect → 2 ≤ s.nsym.toNat →
    ∃ t, exec .build s = .next t ∧
      sortedMergeLoop s.nsym.toNat (s.placeLeaves s.nsym.toNat) (List.range s.nsym.toNat) s.nsym.toNat =
        (t.node, [t.root.toNat])

/-- R140: BUILD's result is a function of FT alone. -/
def Obligations.BuildDependsOnFtAlone : Prop :=
  ∀ s u : State, s.FreqInv → u.FreqInv → s.phase = .collect → u.phase = .collect → s.ft = u.ft →
    ∃ t v, exec .build s = .next t ∧ exec .build u = .next v ∧
      t.nnodes = v.nnodes ∧ t.root = v.root ∧ t.ct = v.ct ∧
      ∀ id < t.nnodes.toNat, nodeAt t.node id = nodeAt v.node id

/-- R136: with one distinct symbol the leaf (id 0) is the LEFT child of an INTERNAL root (id 2) whose RIGHT child is
the VOID sentinel (id 1, FREQ 0); the root's FREQ is the leaf's, which is TOTAL; the symbol's code is "0" and no other
symbol has a code, so the path "1", which leads to VOID, spells none. -/
def Obligations.BuildWrapsOneSymbol : Prop :=
  ∀ (s : State) (sym : Sym), s.FreqInv → s.phase = .collect → s.nsym = 1 → s.present sym = true →
    ∃ t, exec .build s = .next t ∧ t.root = 2 ∧ t.nnodes = 3 ∧
      nodeAt t.node 0 = { kind := .leaf, sym := sym, freq := (s.ftAt sym).count, left := 0, right := 0 } ∧
      nodeAt t.node 1 = { kind := .void, sym := 0, freq := 0, left := 0, right := 0 } ∧
      nodeAt t.node 2 = { kind := .internal, sym := 0, freq := (s.ftAt sym).count, left := 0, right := 1 } ∧
      (s.ftAt sym).count = s.total ∧ follow t.node 2 [true] = some 1 ∧
      (t.ctAt sym).cbits = [false] ∧ ∀ x, x ≠ sym → (t.ctAt x).cbits = []

/-- R150, R153, R137: after BUILD each present symbol's code is the path of bits from ROOT to its leaf, 1 to 255 bits
long, and an absent symbol has no code. -/
def Obligations.BuildCodesArePaths : Prop :=
  ∀ s : State, s.FreqInv → s.phase = .collect → ∃ t, exec .build s = .next t ∧ t.CodePaths

/-- R152: "for every two distinct present symbols neither code is a prefix of the other". -/
def Obligations.BuildCodesArePrefixFree : Prop :=
  ∀ s : State, s.FreqInv → s.phase = .collect →
    ∃ t, exec .build s = .next t ∧
      ∀ x y : Sym, t.present x = true → t.present y = true → x ≠ y → ¬ (t.ctAt x).cbits <+: (t.ctAt y).cbits

/-- R154, R155, R156: QUERY succeeds in every state; RES0 is the count, RES1 holds SYM, RANK, PRESENT and CLEN in
their fields, and bit j of the code stands at position 31 − (j mod 32) of RES(2 + j div 32), positions at or beyond
CLEN 0. -/
def Obligations.QueryReportsEntryAndCode : Prop :=
  ∀ (s : State) (sym : Sym), ∃ t, exec (.query sym) s = .next t ∧ t.succeededFrom s ∧
    t.resAt 0 = (s.ftAt sym).count ∧
    (t.resAt 1).extractLsb' 24 8 = sym ∧
    (t.resAt 1).extractLsb' 16 8 = (if (s.ftAt sym).count = 0 then 0 else (s.ftAt sym).rank) ∧
    (t.resAt 1).extractLsb' 9 7 = 0 ∧
    ((t.resAt 1).getLsbD 8 = true ↔ (s.ftAt sym).count ≠ 0) ∧
    (t.resAt 1).extractLsb' 0 8 =
      (if s.phase = .built ∧ (s.ftAt sym).count ≠ 0 then (s.ctAt sym).clen else 0) ∧
    ∀ j < 256, (t.resAt (2 + j / 32)).getLsbD (31 - j % 32) =
      (if s.phase = .built ∧ (s.ftAt sym).count ≠ 0 then (s.ctAt sym).cbits.getD j false else false)

/-! ## ENCODE and DECODE -/

/-- R160, R162: where every input byte has a code and the codes fit OBUF, PACKED ENCODE writes their concatenation
most significant bit first, zero-padded in the last byte, sets OUT_BITS to its length and OUT_LEN to its bytes, and
leaves the rest of OBUF unchanged. -/
def Obligations.EncodePackedResult : Prop :=
  ∀ (s : State) (data : List Byte), s.params.legal = true → s.phase = .built → s.ibufHolds data →
    data.length = s.len.toNat → s.len.toNat ≤ s.params.ibufSize → (∀ b ∈ data, s.present b = true) →
    (s.codeStream data).length ≤ 8 * s.params.obufSize →
    ∃ t, exec (.encode .packed) s = .next t ∧ t.succeededFrom s ∧
      t.outBits.toNat = (s.codeStream data).length ∧ t.outLen.toNat = ((s.codeStream data).length + 7) / 8 ∧
      (∀ k (h : k < (s.codeStream data).length), (t.obufByte (k / 8)).getLsbD (7 - k % 8) = (s.codeStream data)[k]) ∧
      (∀ k, (s.codeStream data).length ≤ k → k < 8 * t.outLen.toNat → (t.obufByte (k / 8)).getLsbD (7 - k % 8) = false) ∧
      ∀ a, t.outLen.toNat ≤ a → t.obufByte a = s.obufByte a

/-- R160, R163: where every input byte has a code and the codes fit OBUF, ASCII ENCODE writes one byte 0x30 or 0x31
for each bit of their concatenation, sets OUT_LEN = OUT_BITS to its length, and leaves the rest of OBUF unchanged. -/
def Obligations.EncodeAsciiResult : Prop :=
  ∀ (s : State) (data : List Byte), s.params.legal = true → s.phase = .built → s.ibufHolds data →
    data.length = s.len.toNat → s.len.toNat ≤ s.params.ibufSize → (∀ b ∈ data, s.present b = true) →
    (s.codeStream data).length ≤ s.params.obufSize →
    ∃ t, exec (.encode .ascii) s = .next t ∧ t.succeededFrom s ∧
      t.outBits.toNat = (s.codeStream data).length ∧ t.outLen.toNat = (s.codeStream data).length ∧
      (∀ k (h : k < (s.codeStream data).length),
        t.obufByte k = if (s.codeStream data)[k] = true then 0x31 else 0x30) ∧
      ∀ a, t.outLen.toNat ≤ a → t.obufByte a = s.obufByte a

/-- R203, R164, R160, R104: ENCODE reports the first input byte with no code (UNKNOWN_SYMBOL) or whose code does not
fit (CAPACITY_ERROR), whichever comes first, UNKNOWN_SYMBOL winning at the same byte, with ERRPOS its index; OUT_LEN
and OUT_BITS are 0 and every OBUF byte is unspecified. An unspecified byte is the free value of a fresh draw, the
model's choice (assumption 8). -/
def Obligations.EncodeReportsFirstError : Prop :=
  ∀ (fmt : Fmt) (s : State) (pre : List Byte) (b : Byte) (rest : List Byte), s.params.legal = true → s.phase = .built →
    s.ibufHolds (pre ++ b :: rest) → (pre ++ b :: rest).length = s.len.toNat → s.len.toNat ≤ s.params.ibufSize →
    (∀ x ∈ pre, s.present x = true) → (s.codeStream pre).length ≤ s.outputBitCapacity fmt →
    (s.present b = false →
      ∃ t, exec (.encode fmt) s = .next t ∧ t.failedWith .unknownSymbol (BitVec.ofNat 32 pre.length) ∧
        t.outLen = 0 ∧ t.outBits = 0 ∧ ∀ a, t.obufByte a = Config.freeObuf s.draws a) ∧
    (s.present b = true → s.outputBitCapacity fmt < (s.codeStream (pre ++ [b])).length →
      ∃ t, exec (.encode fmt) s = .next t ∧ t.failedWith .capacityError (BitVec.ofNat 32 pre.length) ∧
        t.outLen = 0 ∧ t.outBits = 0 ∧ ∀ a, t.obufByte a = Config.freeObuf s.draws a)

/-- R160, R170, R176, R208: an input longer than IBUF holds (LEN > IBUF_SIZE for ENCODE and ASCII DECODE, BITLEN >
8·IBUF_SIZE for PACKED DECODE) raises CAPACITY_ERROR with ERRPOS 0xFFFFFFFF, OUT_LEN and OUT_BITS 0, and OBUF
unchanged. -/
def Obligations.CodecInputTooLong : Prop :=
  ∀ s : State, s.phase = .built →
    (s.params.ibufSize < s.len.toNat →
      (∀ fmt, exec (.encode fmt) s = .next { s with outLen := 0, outBits := 0, errCode := .capacityError,
                                                    errpos := 0xFFFFFFFF, busy := false, done := true }) ∧
      exec (.decode .ascii) s = .next { s with outLen := 0, outBits := 0, errCode := .capacityError,
                                               errpos := 0xFFFFFFFF, busy := false, done := true }) ∧
    (8 * s.params.ibufSize < s.bitlen.toNat →
      exec (.decode .packed) s = .next { s with outLen := 0, outBits := 0, errCode := .capacityError,
                                                errpos := 0xFFFFFFFF, busy := false, done := true })

/-- R177, R172: decoding the concatenation of the codes of symbols that are all present, in either format, writes
exactly those symbols to OBUF from index 0, sets OUT_LEN to their number and OUT_BITS to the bits consumed, and leaves
the rest of OBUF unchanged. -/
def Obligations.DecodeInvertsCodes : Prop :=
  ∀ (fmt : Fmt) (s : State) (data : List Byte), s.TablesInv → s.phase = .built → (∀ b ∈ data, s.present b = true) →
    s.readsBits fmt (s.codeStream data) → s.inputBits fmt = (s.codeStream data).length →
    s.inputBits fmt ≤ s.inputBitCapacity fmt → data.length ≤ s.params.obufSize →
    ∃ t, exec (.decode fmt) s = .next t ∧ t.succeededFrom s ∧
      t.outLen.toNat = data.length ∧ t.outBits.toNat = (s.codeStream data).length ∧ t.obufHolds data ∧
      ∀ a, data.length ≤ a → t.obufByte a = s.obufByte a

/-- R18, R165: the round trip. ENCODE of any bytes that are all in the corpus, then DECODE in the same format, with
the same tree, of the ENCODE output copied from OBUF to IBUF (BITLEN = OUT_BITS for PACKED, LEN = OUT_LEN for ASCII)
writes the original bytes to OBUF, provided the capacities of R164 and R176 hold. -/
def Obligations.EncodeThenDecodeRoundTrip : Prop :=
  ∀ (fmt : Fmt) (s : State) (data : List Byte), s.TablesInv → s.phase = .built → s.ibufHolds data →
    data.length = s.len.toNat → s.len.toNat ≤ s.params.ibufSize → (∀ b ∈ data, s.present b = true) →
    (s.codeStream data).length ≤ s.outputBitCapacity fmt → (s.codeStream data).length ≤ s.inputBitCapacity fmt →
    data.length ≤ s.params.obufSize →
    ∃ t, exec (.encode fmt) s = .next t ∧ t.succeededFrom s ∧
      ∀ u : State, u.params = t.params → u.ft = t.ft → u.nsym = t.nsym → u.total = t.total → u.phase = t.phase →
        u.node = t.node → u.nnodes = t.nnodes → u.root = t.root → u.ct = t.ct →
        (∀ a < t.outLen.toNat, u.ibufByte a = t.obufByte a) →
        (fmt = .packed → u.bitlen = t.outBits) → (fmt = .ascii → u.len = t.outLen) →
        ∃ v, exec (.decode fmt) u = .next v ∧ v.succeededFrom u ∧ v.outLen.toNat = data.length ∧ v.obufHolds data

/-- R174, R104: an input that ends inside a codeword raises TRUNCATED_STREAM with ERRPOS the index of that codeword's
first bit; OUT_LEN and OUT_BITS are 0 and every OBUF byte is unspecified. An unspecified byte is the free value of a
fresh draw, the model's choice (assumption 8). -/
def Obligations.DecodeReportsTruncation : Prop :=
  ∀ (fmt : Fmt) (s : State) (data : List Byte) (c : List Bool) (id : Nat), s.TablesInv → s.phase = .built →
    (∀ b ∈ data, s.present b = true) → data.length ≤ s.params.obufSize →
    c ≠ [] → follow s.node s.root.toNat c = some id → (nodeAt s.node id).kind = .internal →
    s.readsBits fmt (s.codeStream data ++ c) → s.inputBits fmt = (s.codeStream data ++ c).length →
    s.inputBits fmt ≤ s.inputBitCapacity fmt →
    ∃ t, exec (.decode fmt) s = .next t ∧
      t.failedWith .truncatedStream (BitVec.ofNat 32 (s.codeStream data).length) ∧
      t.outLen = 0 ∧ t.outBits = 0 ∧ ∀ a, t.obufByte a = Config.freeObuf s.draws a

/-- R171, R204: ASCII DECODE that reads a byte other than 0x30 and 0x31, at a codeword's start or inside one, raises
INVALID_BIT with ERRPOS its index, whatever follows it. Every OBUF byte is unspecified, the free value of a fresh draw
(assumption 8). -/
def Obligations.DecodeReportsMalformedToken : Prop :=
  ∀ (s : State) (data : List Byte) (c : List Bool) (id : Nat), s.TablesInv → s.phase = .built →
    (∀ b ∈ data, s.present b = true) → data.length ≤ s.params.obufSize →
    follow s.node s.root.toNat c = some id → (nodeAt s.node id).kind = .internal →
    s.readsBits .ascii (s.codeStream data ++ c) → (s.codeStream data ++ c).length < s.len.toNat →
    s.len.toNat ≤ s.params.ibufSize →
    s.ibufByte (s.codeStream data ++ c).length ≠ 0x30 → s.ibufByte (s.codeStream data ++ c).length ≠ 0x31 →
    ∃ t, exec (.decode .ascii) s = .next t ∧
      t.failedWith .invalidBit (BitVec.ofNat 32 (s.codeStream data ++ c).length) ∧
      t.outLen = 0 ∧ t.outBits = 0 ∧ ∀ a, t.obufByte a = Config.freeObuf s.draws a

/-- R175: in a one-symbol tree a 1 bit at the root leads to VOID: INVALID_BIT with ERRPOS the index of that bit, in
either format. Every OBUF byte is unspecified, the free value of a fresh draw (assumption 8). -/
def Obligations.DecodeReportsVoidPath : Prop :=
  ∀ (fmt : Fmt) (s : State) (k : Nat), s.TablesInv → s.phase = .built → s.nsym = 1 → k ≤ s.params.obufSize →
    s.readsBits fmt (List.replicate k false ++ [true]) → k < s.inputBits fmt →
    s.inputBits fmt ≤ s.inputBitCapacity fmt →
    ∃ t, exec (.decode fmt) s = .next t ∧ t.failedWith .invalidBit (BitVec.ofNat 32 k) ∧
      t.outLen = 0 ∧ t.outBits = 0 ∧ ∀ a, t.obufByte a = Config.freeObuf s.draws a

/-- R176: a codeword completed when OBUF already holds OBUF_SIZE symbols raises CAPACITY_ERROR with ERRPOS the index
of its last bit, whatever follows it. Every OBUF byte is unspecified, the free value of a fresh draw (assumption 8). -/
def Obligations.DecodeReportsOutputCapacity : Prop :=
  ∀ (fmt : Fmt) (s : State) (data : List Byte) (b : Byte), s.TablesInv → s.phase = .built →
    (∀ x ∈ data, s.present x = true) → data.length = s.params.obufSize → s.present b = true →
    s.readsBits fmt (s.codeStream (data ++ [b])) → (s.codeStream (data ++ [b])).length ≤ s.inputBits fmt →
    s.inputBits fmt ≤ s.inputBitCapacity fmt →
    ∃ t, exec (.decode fmt) s = .next t ∧
      t.failedWith .capacityError (BitVec.ofNat 32 ((s.codeStream (data ++ [b])).length - 1)) ∧
      t.outLen = 0 ∧ t.outBits = 0 ∧ ∀ a, t.obufByte a = Config.freeObuf s.draws a

/-! ## Traversal -/

/-- R186: in phase BUILT, TRAV_START sets TPOS to 0 and writes nothing else but the status. -/
def Obligations.TravStartRestarts : Prop :=
  ∀ s : State, s.phase = .built →
    exec .travStart s = .next { s with tpos := 0, errpos := 0, busy := false, done := true }

/-- R187, R188: in phase BUILT, TRAV_NEXT puts the entry of SEQ at TPOS into RES0 (FREQ) and the fields of RES1 and
advances TPOS, or, once TPOS has reached NNODES, puts the end marker there and leaves TPOS; RES2-RES9 are 0. -/
def Obligations.TravNextReturnsEntryOrEnd : Prop :=
  ∀ s : State, s.phase = .built →
    (∀ id d, s.tpos < s.nnodes → s.traversal[s.tpos.toNat]? = some (id, d) →
      ∃ t, exec .travNext s = .next t ∧ t.succeededFrom s ∧ t.tpos = s.tpos + 1 ∧
        t.resAt 0 = (nodeAt s.node id).freq ∧
        (t.resAt 1).extractLsb' 0 9 = BitVec.ofNat 9 id ∧ (t.resAt 1).extractLsb' 9 3 = 0 ∧
        (t.resAt 1).extractLsb' 12 2 = (nodeAt s.node id).kind.code ∧ (t.resAt 1).extractLsb' 14 2 = 0 ∧
        (t.resAt 1).extractLsb' 16 8 = (if (nodeAt s.node id).kind = .leaf then (nodeAt s.node id).sym else 0) ∧
        (t.resAt 1).extractLsb' 24 8 = BitVec.ofNat 8 d ∧ ∀ k, 2 ≤ k → t.resAt k = 0) ∧
    (¬ s.tpos < s.nnodes →
      ∃ t, exec .travNext s = .next t ∧ t.succeededFrom s ∧ t.tpos = s.tpos ∧
        t.resAt 0 = 0 ∧ t.resAt 1 = 0x00008000 ∧ ∀ k, 2 ≤ k → t.resAt k = 0)

/-- R185: SEQ of a built tree lists every node in use exactly once, each with its distance from ROOT (at most 255), in
left-subtree-then-node-then-right-subtree order. -/
def Obligations.TraversalListsEveryNodeInOrder : Prop :=
  ∀ s : State, s.FreqInv → s.phase = .built → s.TreeShape →
    (s.traversal.map Prod.fst).Perm (List.range s.nnodes.toNat) ∧
    (∀ e ∈ s.traversal, ∃ p, follow s.node s.root.toNat p = some e.1 ∧ p.length = e.2 ∧ e.2 ≤ 255) ∧
    s.traversal.Pairwise fun a b =>
      ∃ p q, follow s.node s.root.toNat p = some a.1 ∧ follow s.node s.root.toNat q = some b.1 ∧ inOrderBefore p q

/-! ## The phases -/

/-- R141: "no command writes NODE, NNODES, ROOT or CT except BUILD, and BUILD fails with BUILD_ERROR in phase BUILT".
That CLEAR leaves them as they were, although it makes them invalid (R107), is the model's choice (assumption 9). -/
def Obligations.TreeImmutableWhileBuilt : Prop :=
  (∀ (i : Instr) (s t : State), i ≠ .build → exec i s = .next t →
    t.node = s.node ∧ t.nnodes = s.nnodes ∧ t.root = s.root ∧ t.ct = s.ct) ∧
  ∀ s : State, s.phase = .built →
    ∃ t, exec .build s = .next t ∧ t.errCode = .buildError ∧
      t.node = s.node ∧ t.nnodes = s.nnodes ∧ t.root = s.root ∧ t.ct = s.ct ∧ t.phase = .built

/-- R30: the phase changes only by reset and CLEAR (to EMPTY), a COUNT that adds a symbol (EMPTY to COLLECT) and a
BUILD (COLLECT to BUILT), each completing without error; no other step, and no error, changes it. The event `reset` is
the model's form of rst (assumption 4). -/
def Obligations.PhaseChangesOnlyByTheseEvents : Prop :=
  ∀ s t : State, s.StatusInv → step s = .next t → t.phase ≠ s.phase →
    (s.events.head? = some .reset ∧ t.phase = .empty) ∨
    (s.busy = true ∧ t.busy = false ∧ t.done = true ∧ t.errCode = .none ∧
      ((decodeWord s.lcmd = .ok .clear ∧ t.phase = .empty) ∨
        (decodeWord s.lcmd = .ok .count ∧ s.phase = .empty ∧ t.phase = .collect ∧ t.nsym ≠ 0) ∨
        (decodeWord s.lcmd = .ok .build ∧ s.phase = .collect ∧ t.phase = .built)))

/-! ## The host bus -/

/-- R61, R62, R224: an access of size 3, one not naturally aligned, and one of the register region that is no word
access are answered with hb_err (rdata 0 for a read) and change nothing; every other access that takes effect is
answered with hb_ack. -/
def Obligations.IllegalAccessAnsweredWithError : Prop :=
  ∀ (a : BusAccess) (s : State),
    ((a.size = 3 ∨ a.addr.toNat % 2 ^ a.size.toNat ≠ 0 ∨ (a.addr.toNat < 0x10000 ∧ a.size ≠ 2)) →
      ∃ t, hostAccess a s = .next t ∧ t = { s with answer := t.answer } ∧ t.hbErr = true ∧ t.hbAck = false ∧
        (a.we = false → t.hbRdata = some 0)) ∧
    (¬ (a.size = 3 ∨ a.addr.toNat % 2 ^ a.size.toNat ≠ 0 ∨ (a.addr.toNat < 0x10000 ∧ a.size ≠ 2)) →
      ∀ t, hostAccess a s = .next t → t.hbErr = false ∧ t.hbAck = true)

/-- R26, R30, R35, R200: the fields of STATUS as read, its reserved bits 0, the numbers of the phases and of the error
codes, and irq. -/
def Obligations.StatusWordLayout : Prop :=
  ∀ s : State,
    s.statusWord.getLsbD 0 = s.busy ∧ s.statusWord.getLsbD 1 = s.done ∧ s.statusWord.getLsbD 2 = s.cmdOvr ∧
    s.statusWord.getLsbD 3 = false ∧
    (s.statusWord.extractLsb' 4 2 = 0 ↔ s.phase = .empty) ∧ (s.statusWord.extractLsb' 4 2 = 1 ↔ s.phase = .collect) ∧
    (s.statusWord.extractLsb' 4 2 = 2 ↔ s.phase = .built) ∧
    s.statusWord.extractLsb' 6 2 = 0 ∧
    (s.statusWord.extractLsb' 8 4 = 0 ↔ s.errCode = .none) ∧ (s.statusWord.extractLsb' 8 4 = 1 ↔ s.errCode = .emptyInput) ∧
    (s.statusWord.extractLsb' 8 4 = 2 ↔ s.errCode = .buildError) ∧
    (s.statusWord.extractLsb' 8 4 = 3 ↔ s.errCode = .unknownSymbol) ∧
    (s.statusWord.extractLsb' 8 4 = 4 ↔ s.errCode = .invalidBit) ∧
    (s.statusWord.extractLsb' 8 4 = 5 ↔ s.errCode = .truncatedStream) ∧
    (s.statusWord.extractLsb' 8 4 = 6 ↔ s.errCode = .illegalCommand) ∧
    (s.statusWord.extractLsb' 8 4 = 7 ↔ s.errCode = .sequenceError) ∧
    (s.statusWord.extractLsb' 8 4 = 8 ↔ s.errCode = .capacityError) ∧ s.statusWord.extractLsb' 12 20 = 0 ∧
    (s.irq = true ↔ s.done = true ∧ s.ie = true)

/-- R22, R23, R24, R28, R60: what a word read of each offset of the register region returns while the block is idle,
and that every legal read of the reserved region 0x30000-0x3FFFF, of any size and at any time, returns 0; a read
changes nothing. -/
def Obligations.IdleRegisterReads : Prop :=
  (∀ (a : BusAccess) (s : State), a.legal = true → a.we = false → 0x30000 ≤ a.addr.toNat →
    hostAccess a s = .next { s with answer := some (.ackRead 0) }) ∧
  ∀ s : State, s.busy = false →
    let reads (off : Nat) (v : Word) : Prop :=
      hostAccess ⟨false, 2, BitVec.ofNat 18 off, 0⟩ s = .next { s with answer := some (.ackRead v) }
    reads 0x000 0x48554646 ∧ reads 0x004 0x00000001 ∧ reads 0x008 0 ∧ reads 0x00C s.statusWord ∧
    reads 0x010 (if s.ie then 1 else 0) ∧ reads 0x014 s.len ∧ reads 0x018 s.bitlen ∧ reads 0x01C s.outLen ∧
    reads 0x020 s.outBits ∧ reads 0x024 (s.nsym.setWidth 32) ∧ reads 0x028 s.total ∧ reads 0x02C s.errpos ∧
    (∀ k < 10, reads (0x030 + 4 * k) (s.resAt k)) ∧
    ∀ off, 0x058 ≤ off → off < 0x10000 → off % 4 = 0 → reads off 0

/-- R23, R28, R29, R60, R65: a legal write to a read-only register, to an offset that holds none, to the OBUF window
or to the reserved region changes nothing, at any time; one to CTRL sets IE to bit 0 and nothing else, at any time;
one to LEN or BITLEN of an idle block sets it; each is answered with hb_ack. -/
def Obligations.RegisterWrites : Prop :=
  ∀ (s : State) (w : Word),
    let writes (off : Nat) (t : State) : Prop :=
      hostAccess ⟨true, 2, BitVec.ofNat 18 off, w⟩ s = .next { t with answer := some .ackWrite }
    (∀ off ∈ [0x000, 0x004, 0x01C, 0x020, 0x024, 0x028, 0x02C], writes off s) ∧
    (∀ k < 10, writes (0x030 + 4 * k) s) ∧
    (∀ off, 0x058 ≤ off → off < 0x10000 → off % 4 = 0 → writes off s) ∧
    (∀ a : BusAccess, a.legal = true → a.we = true → 0x20000 ≤ a.addr.toNat →
      hostAccess a s = .next { s with answer := some .ackWrite }) ∧
    writes 0x010 { s with ie := w.getLsbD 0 } ∧
    (s.busy = false → writes 0x014 { s with len := w } ∧ writes 0x018 { s with bitlen := w })

/-- R27: a write of w to STATUS clears DONE if w[1] = 1 and CMD_OVR if w[2] = 1 and changes nothing else, also while
BUSY = 1; if the write and the completion of a command fall in the same cycle, the completion wins and DONE is 1
afterwards. The event `accessAtCompletion` is the model's form of that cycle (assumption 4), and that the write takes
effect before the completion is its order of it (assumption 11). -/
def Obligations.StatusWriteClears : Prop :=
  ∀ (s : State) (w : Word),
    hostAccess ⟨true, 2, 0x0000C, w⟩ s =
      .next { s with done := s.done && !w.getLsbD 1, cmdOvr := s.cmdOvr && !w.getLsbD 2, answer := some .ackWrite } ∧
    (s.busy = true → s.events.head? = some (.accessAtCompletion ⟨true, 2, 0x0000C, w⟩) →
      ∃ t, step s = .next t ∧ t.busy = false ∧ t.done = true ∧ t.cmdOvr = (s.cmdOvr && !w.getLsbD 2))

/-- R100: a word written to CMD of an idle block, legal or not, is accepted: LCMD ← w, BUSY ← 1, DONE ← 0, ERRCODE ←
0, and nothing else changes. -/
def Obligations.CommandAcceptance : Prop :=
  ∀ (s : State) (w : Word), s.busy = false →
    hostAccess ⟨true, 2, 0x00008, w⟩ s =
      .next { s with lcmd := w, busy := true, done := false, errCode := .none, answer := some .ackWrite }

/-- R101: a write to CMD while BUSY = 1 is dropped: it sets CMD_OVR, answers hb_ack and changes nothing else. -/
def Obligations.CommandDroppedWhileBusy : Prop :=
  ∀ (s : State) (w : Word), s.busy = true →
    ∃ t, hostAccess ⟨true, 2, 0x00008, w⟩ s = .next t ∧ t.hbAck = true ∧ t.hbErr = false ∧
      t = { s with cmdOvr := true, answer := some .ackWrite }

/-- R64, R60, R65: a legal write of 1, 2 or 4 bytes to the IBUF window of an idle block stores byte j of the data,
bits 8j+7 : 8j, at the j-th address if IBUF has it, and changes no other byte. -/
def Obligations.IbufWriteLittleEndian : Prop :=
  ∀ (a : BusAccess) (s : State), a.legal = true → a.we = true → a.region = .ibufWindow → s.busy = false →
    ∃ t, hostAccess a s = .next t ∧ t = { s with ibuf := t.ibuf, answer := some .ackWrite } ∧
      (∀ j < 2 ^ a.size.toNat, a.offset + j < s.params.ibufSize →
        t.ibufByte (a.offset + j) = a.wdata.extractLsb' (8 * j) 8) ∧
      ∀ i, (i < a.offset ∨ a.offset + 2 ^ a.size.toNat ≤ i ∨ s.params.ibufSize ≤ i) → t.ibufByte i = s.ibufByte i

/-- R64, R60: a legal read of n = 1, 2 or 4 bytes of a buffer window returns byte j in bits 8j+7 : 8j, a byte past the
buffer's end as 0, and 0 in every higher bit; of IBUF at any time, of OBUF while the block is idle. -/
def Obligations.BufferReadsLittleEndian : Prop :=
  ∀ (a : BusAccess) (s : State), a.legal = true → a.we = false →
    (a.region = .ibufWindow →
      ∃ w, hostAccess a s = .next { s with answer := some (.ackRead w) } ∧
        (∀ j < 2 ^ a.size.toNat, w.extractLsb' (8 * j) 8 =
          (if a.offset + j < s.params.ibufSize then s.ibufByte (a.offset + j) else 0)) ∧
        ∀ j < 32, 8 * 2 ^ a.size.toNat ≤ j → w.getLsbD j = false) ∧
    (a.region = .obufWindow → s.busy = false →
      ∃ w, hostAccess a s = .next { s with answer := some (.ackRead w) } ∧
        (∀ j < 2 ^ a.size.toNat, w.extractLsb' (8 * j) 8 =
          (if a.offset + j < s.params.obufSize then s.obufByte (a.offset + j) else 0)) ∧
        ∀ j < 32, 8 * 2 ^ a.size.toNat ≤ j → w.getLsbD j = false)

/-- R69: no read has a side effect: it changes nothing but the answer (and, of the model's own state, the count of
draws), and on an idle block the same read again returns the same answer. The count of draws is the model's own
(assumption 8). -/
def Obligations.ReadsHaveNoSideEffect : Prop :=
  ∀ (a : BusAccess) (s : State), a.we = false →
    ∃ t, hostAccess a s = .next t ∧ t = { s with answer := t.answer, draws := t.draws } ∧
      (s.busy = false → hostAccess a t = .next t)

/-- R239: while BUSY = 1 a read of OUT_LEN, OUT_BITS, NSYM, TOTAL, ERRPOS or RES0-RES9, or a legal read of 1, 2 or 4
bytes of OBUF, returns a fresh free value, and one of ID, VERSION, STATUS, CTRL, LEN or BITLEN the current value. Of
an OBUF read, byte j is byte j of the draw where OBUF has that address and 0 where it has none (R60), and the bits
above the bytes read are 0 (R64). The numbering of the draws, and that a narrow read uses the low bytes of one, are
the model's own (assumption 8); that an empty address reads 0 also while BUSY = 1 is its reading of R60 (assumption
13). -/
def Obligations.BusyReadsAreFreeOrCurrent : Prop :=
  ∀ s : State, s.busy = true →
    let reads (off : Nat) : Host.Outcome State Fault Refusal := hostAccess ⟨false, 2, BitVec.ofNat 18 off, 0⟩ s
    let drawn : State := { s with answer := some (.ackRead (Config.freeReadData s.draws)), draws := s.draws + 1 }
    let current (v : Word) : State := { s with answer := some (.ackRead v) }
    (∀ off ∈ [0x01C, 0x020, 0x024, 0x028, 0x02C], reads off = .next drawn) ∧
    (∀ k < 10, reads (0x030 + 4 * k) = .next drawn) ∧
    (∀ i, i % 4 = 0 → i + 4 ≤ s.params.obufSize → i < 0x10000 → reads (0x20000 + i) = .next drawn) ∧
    (∀ a : BusAccess, a.legal = true → a.we = false → a.region = .obufWindow →
      (a.offset < s.params.obufSize →
        ∃ w, hostAccess a s = .next { s with answer := some (.ackRead w), draws := s.draws + 1 } ∧
          (∀ j < 2 ^ a.size.toNat, w.extractLsb' (8 * j) 8 =
            (if a.offset + j < s.params.obufSize then (Config.freeReadData s.draws).extractLsb' (8 * j) 8 else 0)) ∧
          ∀ j < 32, 8 * 2 ^ a.size.toNat ≤ j → w.getLsbD j = false) ∧
      (s.params.obufSize ≤ a.offset → hostAccess a s = .next (current 0))) ∧
    reads 0x000 = .next (current 0x48554646) ∧ reads 0x004 = .next (current 0x00000001) ∧
    reads 0x00C = .next (current s.statusWord) ∧ reads 0x010 = .next (current s.ctrlWord) ∧
    reads 0x014 = .next (current s.len) ∧ reads 0x018 = .next (current s.bitlen)

/-! ## Reset -/

/-- R230, R231, R232, R233, R51: rst = 1 at a clock edge leaves every register and FT at its reset value, the block
idle in phase EMPTY with irq low, IBUF unchanged, and OBUF unchanged unless an ENCODE or DECODE was running: then each
of its bytes is unspecified. An unspecified byte is the free value of a fresh draw (assumption 8); the event `reset`
is the model's form of rst (assumption 4). -/
def Obligations.HardReset : Prop :=
  ∀ s : State, s.events.head? = some .reset →
    ∃ t, step s = .next t ∧
      t.statusWord = 0 ∧ t.busy = false ∧ t.done = false ∧ t.cmdOvr = false ∧ t.phase = .empty ∧ t.errCode = .none ∧
      t.ie = false ∧ t.irq = false ∧ t.len = 0 ∧ t.bitlen = 0 ∧ t.outLen = 0 ∧ t.outBits = 0 ∧ t.nsym = 0 ∧
      t.total = 0 ∧ t.errpos = 0 ∧ (∀ k, t.resAt k = 0) ∧ t.tpos = 0 ∧
      (∀ sym, (t.ftAt sym).count = 0 ∧ (t.ftAt sym).rank = 0) ∧
      (∀ a, t.ibufByte a = s.ibufByte a) ∧
      ((s.busy = false ∨ ∀ fmt, decodeWord s.lcmd ≠ .ok (.encode fmt) ∧ decodeWord s.lcmd ≠ .ok (.decode fmt)) →
        ∀ a, t.obufByte a = s.obufByte a) ∧
      ((s.busy = true ∧ ∃ fmt, decodeWord s.lcmd = .ok (.encode fmt) ∨ decodeWord s.lcmd = .ok (.decode fmt)) →
        ∀ a, t.obufByte a = Config.freeObuf s.draws a)

/-- R51, R8: the state after reset has the values R51 gives and meets every invariant. -/
def Obligations.ResetMeetsInvariants : Prop :=
  State.reset.RunInv ∧ State.reset.statusWord = 0 ∧ State.reset.ctrlWord = 0 ∧ State.reset.irq = false ∧
  State.reset.len = 0 ∧ State.reset.bitlen = 0 ∧ State.reset.outLen = 0 ∧ State.reset.outBits = 0 ∧
  State.reset.nsym = 0 ∧ State.reset.total = 0 ∧ State.reset.errpos = 0 ∧ (∀ k, State.reset.resAt k = 0) ∧
  State.reset.tpos = 0 ∧ (∀ sym, State.reset.ftAt sym = FreqEntry.absent) ∧
  State.reset.params.ibufSize = 65536 ∧ State.reset.params.obufSize = 65536

/-! ## Invariants -/

/-- R49, R63, R8: every step keeps both buffers in their canonical form, with no byte outside the buffer, and the
parameters as they are. The canonical form is the model's own (assumption 3). -/
def Obligations.StepKeepsBufferInv : Prop :=
  ∀ s t : State, s.params.legal = true → s.BufferInv → step s = .next t → t.BufferInv ∧ t.params = s.params

/-- R100, R103, R104, R39, R187: every step keeps DONE and ERRCODE 0 while BUSY = 1, and TPOS at most NNODES in phase
BUILT and 0 in the others. -/
def Obligations.StepKeepsStatusAndIteratorInv : Prop :=
  ∀ s t : State, s.StatusInv → s.IteratorInv → step s = .next t → t.StatusInv ∧ t.IteratorInv

/-- R42: the invariants of FT are "held after every command": every step, of the host or the engine, keeps them. -/
def Obligations.StepKeepsFreqInv : Prop :=
  ∀ s t : State, s.FreqInv → step s = .next t → t.FreqInv

/-- R45, R46, R150: every step keeps the invariants of FT together with those of the tree and of the code table in
phase BUILT. -/
def Obligations.StepKeepsTablesInv : Prop :=
  ∀ s t : State, s.TablesInv → step s = .next t → t.TablesInv
end

