-- ==== Sys2Proof/Laws/State.lean ====
section
/-! SUPPORT. One lemma per field of State for each named update of it, true by rfl, so that no proof unfolds a record
update. -/

namespace Sys2Proof.Machine

/-! ## Acceptance (R100). -/

@[simp] theorem State.accept_params (s : State) (w : Word) : (s.accept w).params = s.params := rfl
@[simp] theorem State.accept_events (s : State) (w : Word) : (s.accept w).events = s.events := rfl
@[simp] theorem State.accept_answer (s : State) (w : Word) : (s.accept w).answer = s.answer := rfl
@[simp] theorem State.accept_draws (s : State) (w : Word) : (s.accept w).draws = s.draws := rfl
@[simp] theorem State.accept_busy (s : State) (w : Word) : (s.accept w).busy = true := rfl
@[simp] theorem State.accept_done (s : State) (w : Word) : (s.accept w).done = false := rfl
@[simp] theorem State.accept_cmdOvr (s : State) (w : Word) : (s.accept w).cmdOvr = s.cmdOvr := rfl
@[simp] theorem State.accept_phase (s : State) (w : Word) : (s.accept w).phase = s.phase := rfl
@[simp] theorem State.accept_errCode (s : State) (w : Word) : (s.accept w).errCode = .none := rfl
@[simp] theorem State.accept_ie (s : State) (w : Word) : (s.accept w).ie = s.ie := rfl
@[simp] theorem State.accept_len (s : State) (w : Word) : (s.accept w).len = s.len := rfl
@[simp] theorem State.accept_bitlen (s : State) (w : Word) : (s.accept w).bitlen = s.bitlen := rfl
@[simp] theorem State.accept_outLen (s : State) (w : Word) : (s.accept w).outLen = s.outLen := rfl
@[simp] theorem State.accept_outBits (s : State) (w : Word) : (s.accept w).outBits = s.outBits := rfl
@[simp] theorem State.accept_nsym (s : State) (w : Word) : (s.accept w).nsym = s.nsym := rfl
@[simp] theorem State.accept_total (s : State) (w : Word) : (s.accept w).total = s.total := rfl
@[simp] theorem State.accept_errpos (s : State) (w : Word) : (s.accept w).errpos = s.errpos := rfl
@[simp] theorem State.accept_res (s : State) (w : Word) : (s.accept w).res = s.res := rfl
@[simp] theorem State.accept_lcmd (s : State) (w : Word) : (s.accept w).lcmd = w := rfl
@[simp] theorem State.accept_tpos (s : State) (w : Word) : (s.accept w).tpos = s.tpos := rfl
@[simp] theorem State.accept_ft (s : State) (w : Word) : (s.accept w).ft = s.ft := rfl
@[simp] theorem State.accept_node (s : State) (w : Word) : (s.accept w).node = s.node := rfl
@[simp] theorem State.accept_nnodes (s : State) (w : Word) : (s.accept w).nnodes = s.nnodes := rfl
@[simp] theorem State.accept_root (s : State) (w : Word) : (s.accept w).root = s.root := rfl
@[simp] theorem State.accept_ct (s : State) (w : Word) : (s.accept w).ct = s.ct := rfl
@[simp] theorem State.accept_cur (s : State) (w : Word) : (s.accept w).cur = s.cur := rfl
@[simp] theorem State.accept_start (s : State) (w : Word) : (s.accept w).start = s.start := rfl
@[simp] theorem State.accept_ibuf (s : State) (w : Word) : (s.accept w).ibuf = s.ibuf := rfl
@[simp] theorem State.accept_obuf (s : State) (w : Word) : (s.accept w).obuf = s.obuf := rfl
@[simp] theorem State.accept_obufDraw (s : State) (w : Word) : (s.accept w).obufDraw = s.obufDraw := rfl

/-! ## A dropped CMD write (R101). -/

@[simp] theorem State.dropCommand_params (s : State) : (s.dropCommand).params = s.params := rfl
@[simp] theorem State.dropCommand_events (s : State) : (s.dropCommand).events = s.events := rfl
@[simp] theorem State.dropCommand_answer (s : State) : (s.dropCommand).answer = s.answer := rfl
@[simp] theorem State.dropCommand_draws (s : State) : (s.dropCommand).draws = s.draws := rfl
@[simp] theorem State.dropCommand_busy (s : State) : (s.dropCommand).busy = s.busy := rfl
@[simp] theorem State.dropCommand_done (s : State) : (s.dropCommand).done = s.done := rfl
@[simp] theorem State.dropCommand_cmdOvr (s : State) : (s.dropCommand).cmdOvr = true := rfl
@[simp] theorem State.dropCommand_phase (s : State) : (s.dropCommand).phase = s.phase := rfl
@[simp] theorem State.dropCommand_errCode (s : State) : (s.dropCommand).errCode = s.errCode := rfl
@[simp] theorem State.dropCommand_ie (s : State) : (s.dropCommand).ie = s.ie := rfl
@[simp] theorem State.dropCommand_len (s : State) : (s.dropCommand).len = s.len := rfl
@[simp] theorem State.dropCommand_bitlen (s : State) : (s.dropCommand).bitlen = s.bitlen := rfl
@[simp] theorem State.dropCommand_outLen (s : State) : (s.dropCommand).outLen = s.outLen := rfl
@[simp] theorem State.dropCommand_outBits (s : State) : (s.dropCommand).outBits = s.outBits := rfl
@[simp] theorem State.dropCommand_nsym (s : State) : (s.dropCommand).nsym = s.nsym := rfl
@[simp] theorem State.dropCommand_total (s : State) : (s.dropCommand).total = s.total := rfl
@[simp] theorem State.dropCommand_errpos (s : State) : (s.dropCommand).errpos = s.errpos := rfl
@[simp] theorem State.dropCommand_res (s : State) : (s.dropCommand).res = s.res := rfl
@[simp] theorem State.dropCommand_lcmd (s : State) : (s.dropCommand).lcmd = s.lcmd := rfl
@[simp] theorem State.dropCommand_tpos (s : State) : (s.dropCommand).tpos = s.tpos := rfl
@[simp] theorem State.dropCommand_ft (s : State) : (s.dropCommand).ft = s.ft := rfl
@[simp] theorem State.dropCommand_node (s : State) : (s.dropCommand).node = s.node := rfl
@[simp] theorem State.dropCommand_nnodes (s : State) : (s.dropCommand).nnodes = s.nnodes := rfl
@[simp] theorem State.dropCommand_root (s : State) : (s.dropCommand).root = s.root := rfl
@[simp] theorem State.dropCommand_ct (s : State) : (s.dropCommand).ct = s.ct := rfl
@[simp] theorem State.dropCommand_cur (s : State) : (s.dropCommand).cur = s.cur := rfl
@[simp] theorem State.dropCommand_start (s : State) : (s.dropCommand).start = s.start := rfl
@[simp] theorem State.dropCommand_ibuf (s : State) : (s.dropCommand).ibuf = s.ibuf := rfl
@[simp] theorem State.dropCommand_obuf (s : State) : (s.dropCommand).obuf = s.obuf := rfl
@[simp] theorem State.dropCommand_obufDraw (s : State) : (s.dropCommand).obufDraw = s.obufDraw := rfl

/-! ## Successful completion (R103). -/

@[simp] theorem State.succeed_params (s : State) : (s.succeed).params = s.params := rfl
@[simp] theorem State.succeed_events (s : State) : (s.succeed).events = s.events := rfl
@[simp] theorem State.succeed_answer (s : State) : (s.succeed).answer = s.answer := rfl
@[simp] theorem State.succeed_draws (s : State) : (s.succeed).draws = s.draws := rfl
@[simp] theorem State.succeed_busy (s : State) : (s.succeed).busy = false := rfl
@[simp] theorem State.succeed_done (s : State) : (s.succeed).done = true := rfl
@[simp] theorem State.succeed_cmdOvr (s : State) : (s.succeed).cmdOvr = s.cmdOvr := rfl
@[simp] theorem State.succeed_phase (s : State) : (s.succeed).phase = s.phase := rfl
@[simp] theorem State.succeed_errCode (s : State) : (s.succeed).errCode = s.errCode := rfl
@[simp] theorem State.succeed_ie (s : State) : (s.succeed).ie = s.ie := rfl
@[simp] theorem State.succeed_len (s : State) : (s.succeed).len = s.len := rfl
@[simp] theorem State.succeed_bitlen (s : State) : (s.succeed).bitlen = s.bitlen := rfl
@[simp] theorem State.succeed_outLen (s : State) : (s.succeed).outLen = s.outLen := rfl
@[simp] theorem State.succeed_outBits (s : State) : (s.succeed).outBits = s.outBits := rfl
@[simp] theorem State.succeed_nsym (s : State) : (s.succeed).nsym = s.nsym := rfl
@[simp] theorem State.succeed_total (s : State) : (s.succeed).total = s.total := rfl
@[simp] theorem State.succeed_errpos (s : State) : (s.succeed).errpos = 0 := rfl
@[simp] theorem State.succeed_res (s : State) : (s.succeed).res = s.res := rfl
@[simp] theorem State.succeed_lcmd (s : State) : (s.succeed).lcmd = s.lcmd := rfl
@[simp] theorem State.succeed_tpos (s : State) : (s.succeed).tpos = s.tpos := rfl
@[simp] theorem State.succeed_ft (s : State) : (s.succeed).ft = s.ft := rfl
@[simp] theorem State.succeed_node (s : State) : (s.succeed).node = s.node := rfl
@[simp] theorem State.succeed_nnodes (s : State) : (s.succeed).nnodes = s.nnodes := rfl
@[simp] theorem State.succeed_root (s : State) : (s.succeed).root = s.root := rfl
@[simp] theorem State.succeed_ct (s : State) : (s.succeed).ct = s.ct := rfl
@[simp] theorem State.succeed_cur (s : State) : (s.succeed).cur = s.cur := rfl
@[simp] theorem State.succeed_start (s : State) : (s.succeed).start = s.start := rfl
@[simp] theorem State.succeed_ibuf (s : State) : (s.succeed).ibuf = s.ibuf := rfl
@[simp] theorem State.succeed_obuf (s : State) : (s.succeed).obuf = s.obuf := rfl
@[simp] theorem State.succeed_obufDraw (s : State) : (s.succeed).obufDraw = s.obufDraw := rfl

/-! ## The status of a failed completion (R104). -/

@[simp] theorem State.failStatus_params (s : State) (c : ErrCode) (w : Word) : (s.failStatus c w).params = s.params := rfl
@[simp] theorem State.failStatus_events (s : State) (c : ErrCode) (w : Word) : (s.failStatus c w).events = s.events := rfl
@[simp] theorem State.failStatus_answer (s : State) (c : ErrCode) (w : Word) : (s.failStatus c w).answer = s.answer := rfl
@[simp] theorem State.failStatus_draws (s : State) (c : ErrCode) (w : Word) : (s.failStatus c w).draws = s.draws := rfl
@[simp] theorem State.failStatus_busy (s : State) (c : ErrCode) (w : Word) : (s.failStatus c w).busy = false := rfl
@[simp] theorem State.failStatus_done (s : State) (c : ErrCode) (w : Word) : (s.failStatus c w).done = true := rfl
@[simp] theorem State.failStatus_cmdOvr (s : State) (c : ErrCode) (w : Word) : (s.failStatus c w).cmdOvr = s.cmdOvr := rfl
@[simp] theorem State.failStatus_phase (s : State) (c : ErrCode) (w : Word) : (s.failStatus c w).phase = s.phase := rfl
@[simp] theorem State.failStatus_errCode (s : State) (c : ErrCode) (w : Word) : (s.failStatus c w).errCode = c := rfl
@[simp] theorem State.failStatus_ie (s : State) (c : ErrCode) (w : Word) : (s.failStatus c w).ie = s.ie := rfl
@[simp] theorem State.failStatus_len (s : State) (c : ErrCode) (w : Word) : (s.failStatus c w).len = s.len := rfl
@[simp] theorem State.failStatus_bitlen (s : State) (c : ErrCode) (w : Word) : (s.failStatus c w).bitlen = s.bitlen := rfl
@[simp] theorem State.failStatus_outLen (s : State) (c : ErrCode) (w : Word) : (s.failStatus c w).outLen = s.outLen := rfl
@[simp] theorem State.failStatus_outBits (s : State) (c : ErrCode) (w : Word) : (s.failStatus c w).outBits = s.outBits := rfl
@[simp] theorem State.failStatus_nsym (s : State) (c : ErrCode) (w : Word) : (s.failStatus c w).nsym = s.nsym := rfl
@[simp] theorem State.failStatus_total (s : State) (c : ErrCode) (w : Word) : (s.failStatus c w).total = s.total := rfl
@[simp] theorem State.failStatus_errpos (s : State) (c : ErrCode) (w : Word) : (s.failStatus c w).errpos = w := rfl
@[simp] theorem State.failStatus_res (s : State) (c : ErrCode) (w : Word) : (s.failStatus c w).res = s.res := rfl
@[simp] theorem State.failStatus_lcmd (s : State) (c : ErrCode) (w : Word) : (s.failStatus c w).lcmd = s.lcmd := rfl
@[simp] theorem State.failStatus_tpos (s : State) (c : ErrCode) (w : Word) : (s.failStatus c w).tpos = s.tpos := rfl
@[simp] theorem State.failStatus_ft (s : State) (c : ErrCode) (w : Word) : (s.failStatus c w).ft = s.ft := rfl
@[simp] theorem State.failStatus_node (s : State) (c : ErrCode) (w : Word) : (s.failStatus c w).node = s.node := rfl
@[simp] theorem State.failStatus_nnodes (s : State) (c : ErrCode) (w : Word) : (s.failStatus c w).nnodes = s.nnodes := rfl
@[simp] theorem State.failStatus_root (s : State) (c : ErrCode) (w : Word) : (s.failStatus c w).root = s.root := rfl
@[simp] theorem State.failStatus_ct (s : State) (c : ErrCode) (w : Word) : (s.failStatus c w).ct = s.ct := rfl
@[simp] theorem State.failStatus_cur (s : State) (c : ErrCode) (w : Word) : (s.failStatus c w).cur = s.cur := rfl
@[simp] theorem State.failStatus_start (s : State) (c : ErrCode) (w : Word) : (s.failStatus c w).start = s.start := rfl
@[simp] theorem State.failStatus_ibuf (s : State) (c : ErrCode) (w : Word) : (s.failStatus c w).ibuf = s.ibuf := rfl
@[simp] theorem State.failStatus_obuf (s : State) (c : ErrCode) (w : Word) : (s.failStatus c w).obuf = s.obuf := rfl
@[simp] theorem State.failStatus_obufDraw (s : State) (c : ErrCode) (w : Word) : (s.failStatus c w).obufDraw = s.obufDraw := rfl

/-! ## OBUF drawn afresh (R104). -/

@[simp] theorem State.redrawObuf_params (s : State) : (s.redrawObuf).params = s.params := rfl
@[simp] theorem State.redrawObuf_events (s : State) : (s.redrawObuf).events = s.events := rfl
@[simp] theorem State.redrawObuf_answer (s : State) : (s.redrawObuf).answer = s.answer := rfl
@[simp] theorem State.redrawObuf_draws (s : State) : (s.redrawObuf).draws = s.draws + 1 := rfl
@[simp] theorem State.redrawObuf_busy (s : State) : (s.redrawObuf).busy = s.busy := rfl
@[simp] theorem State.redrawObuf_done (s : State) : (s.redrawObuf).done = s.done := rfl
@[simp] theorem State.redrawObuf_cmdOvr (s : State) : (s.redrawObuf).cmdOvr = s.cmdOvr := rfl
@[simp] theorem State.redrawObuf_phase (s : State) : (s.redrawObuf).phase = s.phase := rfl
@[simp] theorem State.redrawObuf_errCode (s : State) : (s.redrawObuf).errCode = s.errCode := rfl
@[simp] theorem State.redrawObuf_ie (s : State) : (s.redrawObuf).ie = s.ie := rfl
@[simp] theorem State.redrawObuf_len (s : State) : (s.redrawObuf).len = s.len := rfl
@[simp] theorem State.redrawObuf_bitlen (s : State) : (s.redrawObuf).bitlen = s.bitlen := rfl
@[simp] theorem State.redrawObuf_outLen (s : State) : (s.redrawObuf).outLen = s.outLen := rfl
@[simp] theorem State.redrawObuf_outBits (s : State) : (s.redrawObuf).outBits = s.outBits := rfl
@[simp] theorem State.redrawObuf_nsym (s : State) : (s.redrawObuf).nsym = s.nsym := rfl
@[simp] theorem State.redrawObuf_total (s : State) : (s.redrawObuf).total = s.total := rfl
@[simp] theorem State.redrawObuf_errpos (s : State) : (s.redrawObuf).errpos = s.errpos := rfl
@[simp] theorem State.redrawObuf_res (s : State) : (s.redrawObuf).res = s.res := rfl
@[simp] theorem State.redrawObuf_lcmd (s : State) : (s.redrawObuf).lcmd = s.lcmd := rfl
@[simp] theorem State.redrawObuf_tpos (s : State) : (s.redrawObuf).tpos = s.tpos := rfl
@[simp] theorem State.redrawObuf_ft (s : State) : (s.redrawObuf).ft = s.ft := rfl
@[simp] theorem State.redrawObuf_node (s : State) : (s.redrawObuf).node = s.node := rfl
@[simp] theorem State.redrawObuf_nnodes (s : State) : (s.redrawObuf).nnodes = s.nnodes := rfl
@[simp] theorem State.redrawObuf_root (s : State) : (s.redrawObuf).root = s.root := rfl
@[simp] theorem State.redrawObuf_ct (s : State) : (s.redrawObuf).ct = s.ct := rfl
@[simp] theorem State.redrawObuf_cur (s : State) : (s.redrawObuf).cur = s.cur := rfl
@[simp] theorem State.redrawObuf_start (s : State) : (s.redrawObuf).start = s.start := rfl
@[simp] theorem State.redrawObuf_ibuf (s : State) : (s.redrawObuf).ibuf = s.ibuf := rfl
@[simp] theorem State.redrawObuf_obuf (s : State) : (s.redrawObuf).obuf = [] := rfl
@[simp] theorem State.redrawObuf_obufDraw (s : State) : (s.redrawObuf).obufDraw = s.draws := rfl

/-! ## A write to STATUS (R27). -/

@[simp] theorem State.writeStatus_params (s : State) (w : Word) : (s.writeStatus w).params = s.params := rfl
@[simp] theorem State.writeStatus_events (s : State) (w : Word) : (s.writeStatus w).events = s.events := rfl
@[simp] theorem State.writeStatus_answer (s : State) (w : Word) : (s.writeStatus w).answer = s.answer := rfl
@[simp] theorem State.writeStatus_draws (s : State) (w : Word) : (s.writeStatus w).draws = s.draws := rfl
@[simp] theorem State.writeStatus_busy (s : State) (w : Word) : (s.writeStatus w).busy = s.busy := rfl
@[simp] theorem State.writeStatus_done (s : State) (w : Word) : (s.writeStatus w).done = if w.getLsbD 1 then false else s.done := rfl
@[simp] theorem State.writeStatus_cmdOvr (s : State) (w : Word) : (s.writeStatus w).cmdOvr = if w.getLsbD 2 then false else s.cmdOvr := rfl
@[simp] theorem State.writeStatus_phase (s : State) (w : Word) : (s.writeStatus w).phase = s.phase := rfl
@[simp] theorem State.writeStatus_errCode (s : State) (w : Word) : (s.writeStatus w).errCode = s.errCode := rfl
@[simp] theorem State.writeStatus_ie (s : State) (w : Word) : (s.writeStatus w).ie = s.ie := rfl
@[simp] theorem State.writeStatus_len (s : State) (w : Word) : (s.writeStatus w).len = s.len := rfl
@[simp] theorem State.writeStatus_bitlen (s : State) (w : Word) : (s.writeStatus w).bitlen = s.bitlen := rfl
@[simp] theorem State.writeStatus_outLen (s : State) (w : Word) : (s.writeStatus w).outLen = s.outLen := rfl
@[simp] theorem State.writeStatus_outBits (s : State) (w : Word) : (s.writeStatus w).outBits = s.outBits := rfl
@[simp] theorem State.writeStatus_nsym (s : State) (w : Word) : (s.writeStatus w).nsym = s.nsym := rfl
@[simp] theorem State.writeStatus_total (s : State) (w : Word) : (s.writeStatus w).total = s.total := rfl
@[simp] theorem State.writeStatus_errpos (s : State) (w : Word) : (s.writeStatus w).errpos = s.errpos := rfl
@[simp] theorem State.writeStatus_res (s : State) (w : Word) : (s.writeStatus w).res = s.res := rfl
@[simp] theorem State.writeStatus_lcmd (s : State) (w : Word) : (s.writeStatus w).lcmd = s.lcmd := rfl
@[simp] theorem State.writeStatus_tpos (s : State) (w : Word) : (s.writeStatus w).tpos = s.tpos := rfl
@[simp] theorem State.writeStatus_ft (s : State) (w : Word) : (s.writeStatus w).ft = s.ft := rfl
@[simp] theorem State.writeStatus_node (s : State) (w : Word) : (s.writeStatus w).node = s.node := rfl
@[simp] theorem State.writeStatus_nnodes (s : State) (w : Word) : (s.writeStatus w).nnodes = s.nnodes := rfl
@[simp] theorem State.writeStatus_root (s : State) (w : Word) : (s.writeStatus w).root = s.root := rfl
@[simp] theorem State.writeStatus_ct (s : State) (w : Word) : (s.writeStatus w).ct = s.ct := rfl
@[simp] theorem State.writeStatus_cur (s : State) (w : Word) : (s.writeStatus w).cur = s.cur := rfl
@[simp] theorem State.writeStatus_start (s : State) (w : Word) : (s.writeStatus w).start = s.start := rfl
@[simp] theorem State.writeStatus_ibuf (s : State) (w : Word) : (s.writeStatus w).ibuf = s.ibuf := rfl
@[simp] theorem State.writeStatus_obuf (s : State) (w : Word) : (s.writeStatus w).obuf = s.obuf := rfl
@[simp] theorem State.writeStatus_obufDraw (s : State) (w : Word) : (s.writeStatus w).obufDraw = s.obufDraw := rfl

/-! ## A write to CTRL (R28). -/

@[simp] theorem State.writeCtrl_params (s : State) (w : Word) : (s.writeCtrl w).params = s.params := rfl
@[simp] theorem State.writeCtrl_events (s : State) (w : Word) : (s.writeCtrl w).events = s.events := rfl
@[simp] theorem State.writeCtrl_answer (s : State) (w : Word) : (s.writeCtrl w).answer = s.answer := rfl
@[simp] theorem State.writeCtrl_draws (s : State) (w : Word) : (s.writeCtrl w).draws = s.draws := rfl
@[simp] theorem State.writeCtrl_busy (s : State) (w : Word) : (s.writeCtrl w).busy = s.busy := rfl
@[simp] theorem State.writeCtrl_done (s : State) (w : Word) : (s.writeCtrl w).done = s.done := rfl
@[simp] theorem State.writeCtrl_cmdOvr (s : State) (w : Word) : (s.writeCtrl w).cmdOvr = s.cmdOvr := rfl
@[simp] theorem State.writeCtrl_phase (s : State) (w : Word) : (s.writeCtrl w).phase = s.phase := rfl
@[simp] theorem State.writeCtrl_errCode (s : State) (w : Word) : (s.writeCtrl w).errCode = s.errCode := rfl
@[simp] theorem State.writeCtrl_ie (s : State) (w : Word) : (s.writeCtrl w).ie = w.getLsbD 0 := rfl
@[simp] theorem State.writeCtrl_len (s : State) (w : Word) : (s.writeCtrl w).len = s.len := rfl
@[simp] theorem State.writeCtrl_bitlen (s : State) (w : Word) : (s.writeCtrl w).bitlen = s.bitlen := rfl
@[simp] theorem State.writeCtrl_outLen (s : State) (w : Word) : (s.writeCtrl w).outLen = s.outLen := rfl
@[simp] theorem State.writeCtrl_outBits (s : State) (w : Word) : (s.writeCtrl w).outBits = s.outBits := rfl
@[simp] theorem State.writeCtrl_nsym (s : State) (w : Word) : (s.writeCtrl w).nsym = s.nsym := rfl
@[simp] theorem State.writeCtrl_total (s : State) (w : Word) : (s.writeCtrl w).total = s.total := rfl
@[simp] theorem State.writeCtrl_errpos (s : State) (w : Word) : (s.writeCtrl w).errpos = s.errpos := rfl
@[simp] theorem State.writeCtrl_res (s : State) (w : Word) : (s.writeCtrl w).res = s.res := rfl
@[simp] theorem State.writeCtrl_lcmd (s : State) (w : Word) : (s.writeCtrl w).lcmd = s.lcmd := rfl
@[simp] theorem State.writeCtrl_tpos (s : State) (w : Word) : (s.writeCtrl w).tpos = s.tpos := rfl
@[simp] theorem State.writeCtrl_ft (s : State) (w : Word) : (s.writeCtrl w).ft = s.ft := rfl
@[simp] theorem State.writeCtrl_node (s : State) (w : Word) : (s.writeCtrl w).node = s.node := rfl
@[simp] theorem State.writeCtrl_nnodes (s : State) (w : Word) : (s.writeCtrl w).nnodes = s.nnodes := rfl
@[simp] theorem State.writeCtrl_root (s : State) (w : Word) : (s.writeCtrl w).root = s.root := rfl
@[simp] theorem State.writeCtrl_ct (s : State) (w : Word) : (s.writeCtrl w).ct = s.ct := rfl
@[simp] theorem State.writeCtrl_cur (s : State) (w : Word) : (s.writeCtrl w).cur = s.cur := rfl
@[simp] theorem State.writeCtrl_start (s : State) (w : Word) : (s.writeCtrl w).start = s.start := rfl
@[simp] theorem State.writeCtrl_ibuf (s : State) (w : Word) : (s.writeCtrl w).ibuf = s.ibuf := rfl
@[simp] theorem State.writeCtrl_obuf (s : State) (w : Word) : (s.writeCtrl w).obuf = s.obuf := rfl
@[simp] theorem State.writeCtrl_obufDraw (s : State) (w : Word) : (s.writeCtrl w).obufDraw = s.obufDraw := rfl

/-! ## The answer of a read (R37). -/

@[simp] theorem State.answerRead_params (s : State) (w : Word) : (s.answerRead w).params = s.params := rfl
@[simp] theorem State.answerRead_events (s : State) (w : Word) : (s.answerRead w).events = s.events := rfl
@[simp] theorem State.answerRead_answer (s : State) (w : Word) : (s.answerRead w).answer = some (.ackRead w) := rfl
@[simp] theorem State.answerRead_draws (s : State) (w : Word) : (s.answerRead w).draws = s.draws := rfl
@[simp] theorem State.answerRead_busy (s : State) (w : Word) : (s.answerRead w).busy = s.busy := rfl
@[simp] theorem State.answerRead_done (s : State) (w : Word) : (s.answerRead w).done = s.done := rfl
@[simp] theorem State.answerRead_cmdOvr (s : State) (w : Word) : (s.answerRead w).cmdOvr = s.cmdOvr := rfl
@[simp] theorem State.answerRead_phase (s : State) (w : Word) : (s.answerRead w).phase = s.phase := rfl
@[simp] theorem State.answerRead_errCode (s : State) (w : Word) : (s.answerRead w).errCode = s.errCode := rfl
@[simp] theorem State.answerRead_ie (s : State) (w : Word) : (s.answerRead w).ie = s.ie := rfl
@[simp] theorem State.answerRead_len (s : State) (w : Word) : (s.answerRead w).len = s.len := rfl
@[simp] theorem State.answerRead_bitlen (s : State) (w : Word) : (s.answerRead w).bitlen = s.bitlen := rfl
@[simp] theorem State.answerRead_outLen (s : State) (w : Word) : (s.answerRead w).outLen = s.outLen := rfl
@[simp] theorem State.answerRead_outBits (s : State) (w : Word) : (s.answerRead w).outBits = s.outBits := rfl
@[simp] theorem State.answerRead_nsym (s : State) (w : Word) : (s.answerRead w).nsym = s.nsym := rfl
@[simp] theorem State.answerRead_total (s : State) (w : Word) : (s.answerRead w).total = s.total := rfl
@[simp] theorem State.answerRead_errpos (s : State) (w : Word) : (s.answerRead w).errpos = s.errpos := rfl
@[simp] theorem State.answerRead_res (s : State) (w : Word) : (s.answerRead w).res = s.res := rfl
@[simp] theorem State.answerRead_lcmd (s : State) (w : Word) : (s.answerRead w).lcmd = s.lcmd := rfl
@[simp] theorem State.answerRead_tpos (s : State) (w : Word) : (s.answerRead w).tpos = s.tpos := rfl
@[simp] theorem State.answerRead_ft (s : State) (w : Word) : (s.answerRead w).ft = s.ft := rfl
@[simp] theorem State.answerRead_node (s : State) (w : Word) : (s.answerRead w).node = s.node := rfl
@[simp] theorem State.answerRead_nnodes (s : State) (w : Word) : (s.answerRead w).nnodes = s.nnodes := rfl
@[simp] theorem State.answerRead_root (s : State) (w : Word) : (s.answerRead w).root = s.root := rfl
@[simp] theorem State.answerRead_ct (s : State) (w : Word) : (s.answerRead w).ct = s.ct := rfl
@[simp] theorem State.answerRead_cur (s : State) (w : Word) : (s.answerRead w).cur = s.cur := rfl
@[simp] theorem State.answerRead_start (s : State) (w : Word) : (s.answerRead w).start = s.start := rfl
@[simp] theorem State.answerRead_ibuf (s : State) (w : Word) : (s.answerRead w).ibuf = s.ibuf := rfl
@[simp] theorem State.answerRead_obuf (s : State) (w : Word) : (s.answerRead w).obuf = s.obuf := rfl
@[simp] theorem State.answerRead_obufDraw (s : State) (w : Word) : (s.answerRead w).obufDraw = s.obufDraw := rfl

/-! ## The answer of a write (R37). -/

@[simp] theorem State.answerWrite_params (s : State) : (s.answerWrite).params = s.params := rfl
@[simp] theorem State.answerWrite_events (s : State) : (s.answerWrite).events = s.events := rfl
@[simp] theorem State.answerWrite_answer (s : State) : (s.answerWrite).answer = some .ackWrite := rfl
@[simp] theorem State.answerWrite_draws (s : State) : (s.answerWrite).draws = s.draws := rfl
@[simp] theorem State.answerWrite_busy (s : State) : (s.answerWrite).busy = s.busy := rfl
@[simp] theorem State.answerWrite_done (s : State) : (s.answerWrite).done = s.done := rfl
@[simp] theorem State.answerWrite_cmdOvr (s : State) : (s.answerWrite).cmdOvr = s.cmdOvr := rfl
@[simp] theorem State.answerWrite_phase (s : State) : (s.answerWrite).phase = s.phase := rfl
@[simp] theorem State.answerWrite_errCode (s : State) : (s.answerWrite).errCode = s.errCode := rfl
@[simp] theorem State.answerWrite_ie (s : State) : (s.answerWrite).ie = s.ie := rfl
@[simp] theorem State.answerWrite_len (s : State) : (s.answerWrite).len = s.len := rfl
@[simp] theorem State.answerWrite_bitlen (s : State) : (s.answerWrite).bitlen = s.bitlen := rfl
@[simp] theorem State.answerWrite_outLen (s : State) : (s.answerWrite).outLen = s.outLen := rfl
@[simp] theorem State.answerWrite_outBits (s : State) : (s.answerWrite).outBits = s.outBits := rfl
@[simp] theorem State.answerWrite_nsym (s : State) : (s.answerWrite).nsym = s.nsym := rfl
@[simp] theorem State.answerWrite_total (s : State) : (s.answerWrite).total = s.total := rfl
@[simp] theorem State.answerWrite_errpos (s : State) : (s.answerWrite).errpos = s.errpos := rfl
@[simp] theorem State.answerWrite_res (s : State) : (s.answerWrite).res = s.res := rfl
@[simp] theorem State.answerWrite_lcmd (s : State) : (s.answerWrite).lcmd = s.lcmd := rfl
@[simp] theorem State.answerWrite_tpos (s : State) : (s.answerWrite).tpos = s.tpos := rfl
@[simp] theorem State.answerWrite_ft (s : State) : (s.answerWrite).ft = s.ft := rfl
@[simp] theorem State.answerWrite_node (s : State) : (s.answerWrite).node = s.node := rfl
@[simp] theorem State.answerWrite_nnodes (s : State) : (s.answerWrite).nnodes = s.nnodes := rfl
@[simp] theorem State.answerWrite_root (s : State) : (s.answerWrite).root = s.root := rfl
@[simp] theorem State.answerWrite_ct (s : State) : (s.answerWrite).ct = s.ct := rfl
@[simp] theorem State.answerWrite_cur (s : State) : (s.answerWrite).cur = s.cur := rfl
@[simp] theorem State.answerWrite_start (s : State) : (s.answerWrite).start = s.start := rfl
@[simp] theorem State.answerWrite_ibuf (s : State) : (s.answerWrite).ibuf = s.ibuf := rfl
@[simp] theorem State.answerWrite_obuf (s : State) : (s.answerWrite).obuf = s.obuf := rfl
@[simp] theorem State.answerWrite_obufDraw (s : State) : (s.answerWrite).obufDraw = s.obufDraw := rfl

/-! ## The answer of an illegal access (R62). -/

@[simp] theorem State.answerError_params (s : State) (a : BusAccess) : (s.answerError a).params = s.params := rfl
@[simp] theorem State.answerError_events (s : State) (a : BusAccess) : (s.answerError a).events = s.events := rfl
@[simp] theorem State.answerError_answer (s : State) (a : BusAccess) : (s.answerError a).answer = some (if a.we then .errWrite else .errRead) := rfl
@[simp] theorem State.answerError_draws (s : State) (a : BusAccess) : (s.answerError a).draws = s.draws := rfl
@[simp] theorem State.answerError_busy (s : State) (a : BusAccess) : (s.answerError a).busy = s.busy := rfl
@[simp] theorem State.answerError_done (s : State) (a : BusAccess) : (s.answerError a).done = s.done := rfl
@[simp] theorem State.answerError_cmdOvr (s : State) (a : BusAccess) : (s.answerError a).cmdOvr = s.cmdOvr := rfl
@[simp] theorem State.answerError_phase (s : State) (a : BusAccess) : (s.answerError a).phase = s.phase := rfl
@[simp] theorem State.answerError_errCode (s : State) (a : BusAccess) : (s.answerError a).errCode = s.errCode := rfl
@[simp] theorem State.answerError_ie (s : State) (a : BusAccess) : (s.answerError a).ie = s.ie := rfl
@[simp] theorem State.answerError_len (s : State) (a : BusAccess) : (s.answerError a).len = s.len := rfl
@[simp] theorem State.answerError_bitlen (s : State) (a : BusAccess) : (s.answerError a).bitlen = s.bitlen := rfl
@[simp] theorem State.answerError_outLen (s : State) (a : BusAccess) : (s.answerError a).outLen = s.outLen := rfl
@[simp] theorem State.answerError_outBits (s : State) (a : BusAccess) : (s.answerError a).outBits = s.outBits := rfl
@[simp] theorem State.answerError_nsym (s : State) (a : BusAccess) : (s.answerError a).nsym = s.nsym := rfl
@[simp] theorem State.answerError_total (s : State) (a : BusAccess) : (s.answerError a).total = s.total := rfl
@[simp] theorem State.answerError_errpos (s : State) (a : BusAccess) : (s.answerError a).errpos = s.errpos := rfl
@[simp] theorem State.answerError_res (s : State) (a : BusAccess) : (s.answerError a).res = s.res := rfl
@[simp] theorem State.answerError_lcmd (s : State) (a : BusAccess) : (s.answerError a).lcmd = s.lcmd := rfl
@[simp] theorem State.answerError_tpos (s : State) (a : BusAccess) : (s.answerError a).tpos = s.tpos := rfl
@[simp] theorem State.answerError_ft (s : State) (a : BusAccess) : (s.answerError a).ft = s.ft := rfl
@[simp] theorem State.answerError_node (s : State) (a : BusAccess) : (s.answerError a).node = s.node := rfl
@[simp] theorem State.answerError_nnodes (s : State) (a : BusAccess) : (s.answerError a).nnodes = s.nnodes := rfl
@[simp] theorem State.answerError_root (s : State) (a : BusAccess) : (s.answerError a).root = s.root := rfl
@[simp] theorem State.answerError_ct (s : State) (a : BusAccess) : (s.answerError a).ct = s.ct := rfl
@[simp] theorem State.answerError_cur (s : State) (a : BusAccess) : (s.answerError a).cur = s.cur := rfl
@[simp] theorem State.answerError_start (s : State) (a : BusAccess) : (s.answerError a).start = s.start := rfl
@[simp] theorem State.answerError_ibuf (s : State) (a : BusAccess) : (s.answerError a).ibuf = s.ibuf := rfl
@[simp] theorem State.answerError_obuf (s : State) (a : BusAccess) : (s.answerError a).obuf = s.obuf := rfl
@[simp] theorem State.answerError_obufDraw (s : State) (a : BusAccess) : (s.answerError a).obufDraw = s.obufDraw := rfl

/-! ## The event taken off the list. -/

@[simp] theorem State.takeEvent_params (s : State) : (s.takeEvent).params = s.params := rfl
@[simp] theorem State.takeEvent_events (s : State) : (s.takeEvent).events = s.events.tail := rfl
@[simp] theorem State.takeEvent_answer (s : State) : (s.takeEvent).answer = none := rfl
@[simp] theorem State.takeEvent_draws (s : State) : (s.takeEvent).draws = s.draws := rfl
@[simp] theorem State.takeEvent_busy (s : State) : (s.takeEvent).busy = s.busy := rfl
@[simp] theorem State.takeEvent_done (s : State) : (s.takeEvent).done = s.done := rfl
@[simp] theorem State.takeEvent_cmdOvr (s : State) : (s.takeEvent).cmdOvr = s.cmdOvr := rfl
@[simp] theorem State.takeEvent_phase (s : State) : (s.takeEvent).phase = s.phase := rfl
@[simp] theorem State.takeEvent_errCode (s : State) : (s.takeEvent).errCode = s.errCode := rfl
@[simp] theorem State.takeEvent_ie (s : State) : (s.takeEvent).ie = s.ie := rfl
@[simp] theorem State.takeEvent_len (s : State) : (s.takeEvent).len = s.len := rfl
@[simp] theorem State.takeEvent_bitlen (s : State) : (s.takeEvent).bitlen = s.bitlen := rfl
@[simp] theorem State.takeEvent_outLen (s : State) : (s.takeEvent).outLen = s.outLen := rfl
@[simp] theorem State.takeEvent_outBits (s : State) : (s.takeEvent).outBits = s.outBits := rfl
@[simp] theorem State.takeEvent_nsym (s : State) : (s.takeEvent).nsym = s.nsym := rfl
@[simp] theorem State.takeEvent_total (s : State) : (s.takeEvent).total = s.total := rfl
@[simp] theorem State.takeEvent_errpos (s : State) : (s.takeEvent).errpos = s.errpos := rfl
@[simp] theorem State.takeEvent_res (s : State) : (s.takeEvent).res = s.res := rfl
@[simp] theorem State.takeEvent_lcmd (s : State) : (s.takeEvent).lcmd = s.lcmd := rfl
@[simp] theorem State.takeEvent_tpos (s : State) : (s.takeEvent).tpos = s.tpos := rfl
@[simp] theorem State.takeEvent_ft (s : State) : (s.takeEvent).ft = s.ft := rfl
@[simp] theorem State.takeEvent_node (s : State) : (s.takeEvent).node = s.node := rfl
@[simp] theorem State.takeEvent_nnodes (s : State) : (s.takeEvent).nnodes = s.nnodes := rfl
@[simp] theorem State.takeEvent_root (s : State) : (s.takeEvent).root = s.root := rfl
@[simp] theorem State.takeEvent_ct (s : State) : (s.takeEvent).ct = s.ct := rfl
@[simp] theorem State.takeEvent_cur (s : State) : (s.takeEvent).cur = s.cur := rfl
@[simp] theorem State.takeEvent_start (s : State) : (s.takeEvent).start = s.start := rfl
@[simp] theorem State.takeEvent_ibuf (s : State) : (s.takeEvent).ibuf = s.ibuf := rfl
@[simp] theorem State.takeEvent_obuf (s : State) : (s.takeEvent).obuf = s.obuf := rfl
@[simp] theorem State.takeEvent_obufDraw (s : State) : (s.takeEvent).obufDraw = s.obufDraw := rfl

/-! ## COUNT's phase update (R120). -/

@[simp] theorem State.collectIfAny_params (s : State) : (s.collectIfAny).params = s.params := rfl
@[simp] theorem State.collectIfAny_events (s : State) : (s.collectIfAny).events = s.events := rfl
@[simp] theorem State.collectIfAny_answer (s : State) : (s.collectIfAny).answer = s.answer := rfl
@[simp] theorem State.collectIfAny_draws (s : State) : (s.collectIfAny).draws = s.draws := rfl
@[simp] theorem State.collectIfAny_busy (s : State) : (s.collectIfAny).busy = s.busy := rfl
@[simp] theorem State.collectIfAny_done (s : State) : (s.collectIfAny).done = s.done := rfl
@[simp] theorem State.collectIfAny_cmdOvr (s : State) : (s.collectIfAny).cmdOvr = s.cmdOvr := rfl
@[simp] theorem State.collectIfAny_phase (s : State) : (s.collectIfAny).phase = if s.nsym = 0 then s.phase else .collect := rfl
@[simp] theorem State.collectIfAny_errCode (s : State) : (s.collectIfAny).errCode = s.errCode := rfl
@[simp] theorem State.collectIfAny_ie (s : State) : (s.collectIfAny).ie = s.ie := rfl
@[simp] theorem State.collectIfAny_len (s : State) : (s.collectIfAny).len = s.len := rfl
@[simp] theorem State.collectIfAny_bitlen (s : State) : (s.collectIfAny).bitlen = s.bitlen := rfl
@[simp] theorem State.collectIfAny_outLen (s : State) : (s.collectIfAny).outLen = s.outLen := rfl
@[simp] theorem State.collectIfAny_outBits (s : State) : (s.collectIfAny).outBits = s.outBits := rfl
@[simp] theorem State.collectIfAny_nsym (s : State) : (s.collectIfAny).nsym = s.nsym := rfl
@[simp] theorem State.collectIfAny_total (s : State) : (s.collectIfAny).total = s.total := rfl
@[simp] theorem State.collectIfAny_errpos (s : State) : (s.collectIfAny).errpos = s.errpos := rfl
@[simp] theorem State.collectIfAny_res (s : State) : (s.collectIfAny).res = s.res := rfl
@[simp] theorem State.collectIfAny_lcmd (s : State) : (s.collectIfAny).lcmd = s.lcmd := rfl
@[simp] theorem State.collectIfAny_tpos (s : State) : (s.collectIfAny).tpos = s.tpos := rfl
@[simp] theorem State.collectIfAny_ft (s : State) : (s.collectIfAny).ft = s.ft := rfl
@[simp] theorem State.collectIfAny_node (s : State) : (s.collectIfAny).node = s.node := rfl
@[simp] theorem State.collectIfAny_nnodes (s : State) : (s.collectIfAny).nnodes = s.nnodes := rfl
@[simp] theorem State.collectIfAny_root (s : State) : (s.collectIfAny).root = s.root := rfl
@[simp] theorem State.collectIfAny_ct (s : State) : (s.collectIfAny).ct = s.ct := rfl
@[simp] theorem State.collectIfAny_cur (s : State) : (s.collectIfAny).cur = s.cur := rfl
@[simp] theorem State.collectIfAny_start (s : State) : (s.collectIfAny).start = s.start := rfl
@[simp] theorem State.collectIfAny_ibuf (s : State) : (s.collectIfAny).ibuf = s.ibuf := rfl
@[simp] theorem State.collectIfAny_obuf (s : State) : (s.collectIfAny).obuf = s.obuf := rfl
@[simp] theorem State.collectIfAny_obufDraw (s : State) : (s.collectIfAny).obufDraw = s.obufDraw := rfl

/-! ## ENCODE's output (R160). -/

@[simp] theorem State.writeStream_params (s : State) (f : Fmt) (l : List Bool) : (s.writeStream f l).params = s.params := rfl
@[simp] theorem State.writeStream_events (s : State) (f : Fmt) (l : List Bool) : (s.writeStream f l).events = s.events := rfl
@[simp] theorem State.writeStream_answer (s : State) (f : Fmt) (l : List Bool) : (s.writeStream f l).answer = s.answer := rfl
@[simp] theorem State.writeStream_draws (s : State) (f : Fmt) (l : List Bool) : (s.writeStream f l).draws = s.draws := rfl
@[simp] theorem State.writeStream_busy (s : State) (f : Fmt) (l : List Bool) : (s.writeStream f l).busy = s.busy := rfl
@[simp] theorem State.writeStream_done (s : State) (f : Fmt) (l : List Bool) : (s.writeStream f l).done = s.done := rfl
@[simp] theorem State.writeStream_cmdOvr (s : State) (f : Fmt) (l : List Bool) : (s.writeStream f l).cmdOvr = s.cmdOvr := rfl
@[simp] theorem State.writeStream_phase (s : State) (f : Fmt) (l : List Bool) : (s.writeStream f l).phase = s.phase := rfl
@[simp] theorem State.writeStream_errCode (s : State) (f : Fmt) (l : List Bool) : (s.writeStream f l).errCode = s.errCode := rfl
@[simp] theorem State.writeStream_ie (s : State) (f : Fmt) (l : List Bool) : (s.writeStream f l).ie = s.ie := rfl
@[simp] theorem State.writeStream_len (s : State) (f : Fmt) (l : List Bool) : (s.writeStream f l).len = s.len := rfl
@[simp] theorem State.writeStream_bitlen (s : State) (f : Fmt) (l : List Bool) : (s.writeStream f l).bitlen = s.bitlen := rfl
@[simp] theorem State.writeStream_outLen (s : State) (f : Fmt) (l : List Bool) : (s.writeStream f l).outLen = BitVec.ofNat 32 (formatBytes f l).length := rfl
@[simp] theorem State.writeStream_outBits (s : State) (f : Fmt) (l : List Bool) : (s.writeStream f l).outBits = BitVec.ofNat 32 l.length := rfl
@[simp] theorem State.writeStream_nsym (s : State) (f : Fmt) (l : List Bool) : (s.writeStream f l).nsym = s.nsym := rfl
@[simp] theorem State.writeStream_total (s : State) (f : Fmt) (l : List Bool) : (s.writeStream f l).total = s.total := rfl
@[simp] theorem State.writeStream_errpos (s : State) (f : Fmt) (l : List Bool) : (s.writeStream f l).errpos = s.errpos := rfl
@[simp] theorem State.writeStream_res (s : State) (f : Fmt) (l : List Bool) : (s.writeStream f l).res = s.res := rfl
@[simp] theorem State.writeStream_lcmd (s : State) (f : Fmt) (l : List Bool) : (s.writeStream f l).lcmd = s.lcmd := rfl
@[simp] theorem State.writeStream_tpos (s : State) (f : Fmt) (l : List Bool) : (s.writeStream f l).tpos = s.tpos := rfl
@[simp] theorem State.writeStream_ft (s : State) (f : Fmt) (l : List Bool) : (s.writeStream f l).ft = s.ft := rfl
@[simp] theorem State.writeStream_node (s : State) (f : Fmt) (l : List Bool) : (s.writeStream f l).node = s.node := rfl
@[simp] theorem State.writeStream_nnodes (s : State) (f : Fmt) (l : List Bool) : (s.writeStream f l).nnodes = s.nnodes := rfl
@[simp] theorem State.writeStream_root (s : State) (f : Fmt) (l : List Bool) : (s.writeStream f l).root = s.root := rfl
@[simp] theorem State.writeStream_ct (s : State) (f : Fmt) (l : List Bool) : (s.writeStream f l).ct = s.ct := rfl
@[simp] theorem State.writeStream_cur (s : State) (f : Fmt) (l : List Bool) : (s.writeStream f l).cur = s.cur := rfl
@[simp] theorem State.writeStream_start (s : State) (f : Fmt) (l : List Bool) : (s.writeStream f l).start = s.start := rfl
@[simp] theorem State.writeStream_ibuf (s : State) (f : Fmt) (l : List Bool) : (s.writeStream f l).ibuf = s.ibuf := rfl
@[simp] theorem State.writeStream_obuf (s : State) (f : Fmt) (l : List Bool) : (s.writeStream f l).obuf = Memory.writeBytes s.obuf 0 (formatBytes f l) := rfl
@[simp] theorem State.writeStream_obufDraw (s : State) (f : Fmt) (l : List Bool) : (s.writeStream f l).obufDraw = s.obufDraw := rfl

/-! ## DECODE's results (R170). -/

@[simp] theorem State.finishDecode_params (s : State) (n : Nat) (w : Walk) : (s.finishDecode n w).params = s.params := rfl
@[simp] theorem State.finishDecode_events (s : State) (n : Nat) (w : Walk) : (s.finishDecode n w).events = s.events := rfl
@[simp] theorem State.finishDecode_answer (s : State) (n : Nat) (w : Walk) : (s.finishDecode n w).answer = s.answer := rfl
@[simp] theorem State.finishDecode_draws (s : State) (n : Nat) (w : Walk) : (s.finishDecode n w).draws = s.draws := rfl
@[simp] theorem State.finishDecode_busy (s : State) (n : Nat) (w : Walk) : (s.finishDecode n w).busy = s.busy := rfl
@[simp] theorem State.finishDecode_done (s : State) (n : Nat) (w : Walk) : (s.finishDecode n w).done = s.done := rfl
@[simp] theorem State.finishDecode_cmdOvr (s : State) (n : Nat) (w : Walk) : (s.finishDecode n w).cmdOvr = s.cmdOvr := rfl
@[simp] theorem State.finishDecode_phase (s : State) (n : Nat) (w : Walk) : (s.finishDecode n w).phase = s.phase := rfl
@[simp] theorem State.finishDecode_errCode (s : State) (n : Nat) (w : Walk) : (s.finishDecode n w).errCode = s.errCode := rfl
@[simp] theorem State.finishDecode_ie (s : State) (n : Nat) (w : Walk) : (s.finishDecode n w).ie = s.ie := rfl
@[simp] theorem State.finishDecode_len (s : State) (n : Nat) (w : Walk) : (s.finishDecode n w).len = s.len := rfl
@[simp] theorem State.finishDecode_bitlen (s : State) (n : Nat) (w : Walk) : (s.finishDecode n w).bitlen = s.bitlen := rfl
@[simp] theorem State.finishDecode_outLen (s : State) (n : Nat) (w : Walk) : (s.finishDecode n w).outLen = BitVec.ofNat 32 w.out := rfl
@[simp] theorem State.finishDecode_outBits (s : State) (n : Nat) (w : Walk) : (s.finishDecode n w).outBits = BitVec.ofNat 32 n := rfl
@[simp] theorem State.finishDecode_nsym (s : State) (n : Nat) (w : Walk) : (s.finishDecode n w).nsym = s.nsym := rfl
@[simp] theorem State.finishDecode_total (s : State) (n : Nat) (w : Walk) : (s.finishDecode n w).total = s.total := rfl
@[simp] theorem State.finishDecode_errpos (s : State) (n : Nat) (w : Walk) : (s.finishDecode n w).errpos = s.errpos := rfl
@[simp] theorem State.finishDecode_res (s : State) (n : Nat) (w : Walk) : (s.finishDecode n w).res = s.res := rfl
@[simp] theorem State.finishDecode_lcmd (s : State) (n : Nat) (w : Walk) : (s.finishDecode n w).lcmd = s.lcmd := rfl
@[simp] theorem State.finishDecode_tpos (s : State) (n : Nat) (w : Walk) : (s.finishDecode n w).tpos = s.tpos := rfl
@[simp] theorem State.finishDecode_ft (s : State) (n : Nat) (w : Walk) : (s.finishDecode n w).ft = s.ft := rfl
@[simp] theorem State.finishDecode_node (s : State) (n : Nat) (w : Walk) : (s.finishDecode n w).node = s.node := rfl
@[simp] theorem State.finishDecode_nnodes (s : State) (n : Nat) (w : Walk) : (s.finishDecode n w).nnodes = s.nnodes := rfl
@[simp] theorem State.finishDecode_root (s : State) (n : Nat) (w : Walk) : (s.finishDecode n w).root = s.root := rfl
@[simp] theorem State.finishDecode_ct (s : State) (n : Nat) (w : Walk) : (s.finishDecode n w).ct = s.ct := rfl
@[simp] theorem State.finishDecode_cur (s : State) (n : Nat) (w : Walk) : (s.finishDecode n w).cur = w.cur := rfl
@[simp] theorem State.finishDecode_start (s : State) (n : Nat) (w : Walk) : (s.finishDecode n w).start = BitVec.ofNat 32 w.start := rfl
@[simp] theorem State.finishDecode_ibuf (s : State) (n : Nat) (w : Walk) : (s.finishDecode n w).ibuf = s.ibuf := rfl
@[simp] theorem State.finishDecode_obuf (s : State) (n : Nat) (w : Walk) : (s.finishDecode n w).obuf = w.obuf := rfl
@[simp] theorem State.finishDecode_obufDraw (s : State) (n : Nat) (w : Walk) : (s.finishDecode n w).obufDraw = s.obufDraw := rfl

end Sys2Proof.Machine
end

