-- ==== Sys2Proof/Laws/Memory.lean ====
section
/-! SUPPORT. The laws of the byte memories: read after write, canonical form, and that canonical memories that read
alike under every background are the same list. -/

namespace Sys2Proof.Machine

/-! ## Read after write -/

@[simp] theorem Memory.lookup_nil (i : Nat) : Memory.lookup [] i = none := rfl

@[simp] theorem Memory.lookup_write_same (m : Memory) (i : Nat) (v : Byte) :
    Memory.lookup (Memory.write m i v) i = some v := by
  induction m with
  | nil => simp [Memory.write, Memory.lookup]
  | cons c m ih =>
    unfold Memory.write
    split
    · simp [Memory.lookup]
    · split
      · simp [Memory.lookup]
      · rename_i h
        simp [Memory.lookup, h, ih]

theorem Memory.lookup_write_ne (m : Memory) {i j : Nat} (v : Byte) (h : j ≠ i) :
    Memory.lookup (Memory.write m i v) j = Memory.lookup m j := by
  induction m with
  | nil => simp [Memory.write, Memory.lookup, h]
  | cons c m ih =>
    unfold Memory.write
    split
    · simp [Memory.lookup, h]
    · split
      · rename_i hc
        subst hc
        simp [Memory.lookup, h]
      · simp [Memory.lookup, ih]

/-- What a block write leaves at each index: the block's byte inside it, the old byte outside. -/
theorem Memory.lookup_writeBytes (m : Memory) (i : Nat) (vs : List Byte) (j : Nat) :
    Memory.lookup (Memory.writeBytes m i vs) j =
      if i ≤ j ∧ j < i + vs.length then vs[j - i]? else Memory.lookup m j := by
  induction vs generalizing m i with
  | nil => simp [Memory.writeBytes]
  | cons v vs ih =>
    rw [Memory.writeBytes, ih]
    rcases Nat.lt_trichotomy j i with h | h | h
    · rw [if_neg (by omega), if_neg (by omega), Memory.lookup_write_ne _ _ (by omega)]
    · subst h
      simp
    · rw [Memory.lookup_write_ne _ _ (by omega)]
      have hs : j - i = (j - (i + 1)) + 1 := by omega
      by_cases hj : j < i + 1 + vs.length
      · rw [if_pos ⟨by omega, hj⟩, if_pos ⟨by omega, by simp; omega⟩, hs, List.getElem?_cons_succ]
      · rw [if_neg (by omega), if_neg (by simp; omega)]

/-! ## Canonical form -/

theorem Memory.risesFrom_mono {m : Memory} {lo lo' : Nat} (h : lo' ≤ lo) (hm : Memory.risesFrom lo m = true) :
    Memory.risesFrom lo' m = true := by
  cases m with
  | nil => rfl
  | cons c m => simp [Memory.risesFrom] at *; exact ⟨by omega, hm.2⟩

theorem Memory.risesFrom_write {m : Memory} {lo i : Nat} (v : Byte) (hi : lo ≤ i)
    (hm : Memory.risesFrom lo m = true) : Memory.risesFrom lo (Memory.write m i v) = true := by
  induction m generalizing lo with
  | nil => simp [Memory.write, Memory.risesFrom, hi]
  | cons c m ih =>
    simp only [Memory.risesFrom, Bool.and_eq_true, decide_eq_true_eq] at hm
    unfold Memory.write
    split
    · simp [Memory.risesFrom, hi, hm.2]; omega
    · split
      · rename_i h
        subst h
        simp [Memory.risesFrom, hi, hm.2]
      · simp [Memory.risesFrom, hm.1]
        exact ih (by omega) hm.2

theorem Memory.all_write {p : Host.Cell → Bool} {m : Memory} {i : Nat} {v : Byte} (hp : p (i, v) = true)
    (hm : m.all p = true) : (Memory.write m i v).all p = true := by
  induction m with
  | nil => simp [Memory.write, hp]
  | cons c m ih =>
    simp only [List.all_cons, Bool.and_eq_true] at hm
    unfold Memory.write
    split
    · simp_all
    · split
      · simp_all
      · simp only [List.all_cons, Bool.and_eq_true]
        exact ⟨hm.1, ih hm.2⟩

@[simp] theorem Memory.wf_nil (size : Nat) : Memory.wf size [] = true := rfl

/-- A write inside the buffer keeps the canonical form. -/
theorem Memory.wf_write {size : Nat} {m : Memory} {i : Nat} (v : Byte) (hi : i < size)
    (hm : Memory.wf size m = true) : Memory.wf size (Memory.write m i v) = true := by
  simp only [Memory.wf, Bool.and_eq_true] at hm ⊢
  exact ⟨Memory.risesFrom_write v (Nat.zero_le _) hm.1, Memory.all_write (by simpa using hi) hm.2⟩

/-- A block write inside the buffer keeps the canonical form. -/
theorem Memory.wf_writeBytes {size : Nat} {m : Memory} {i : Nat} {vs : List Byte}
    (hi : vs = [] ∨ i + vs.length ≤ size) (hm : Memory.wf size m = true) :
    Memory.wf size (Memory.writeBytes m i vs) = true := by
  induction vs generalizing m i with
  | nil => exact hm
  | cons v vs ih =>
    have hl : i + (vs.length + 1) ≤ size := by simpa using hi
    exact ih (.inr (by omega)) (Memory.wf_write v (by omega) hm)

theorem Memory.lookup_below {m : Memory} {lo i : Nat} (hm : Memory.risesFrom lo m = true) (hi : i < lo) :
    Memory.lookup m i = none := by
  induction m generalizing lo with
  | nil => rfl
  | cons c m ih =>
    simp only [Memory.risesFrom, Bool.and_eq_true, decide_eq_true_eq] at hm
    rw [Memory.lookup, if_neg (by omega)]
    exact ih hm.2 (by omega)

/-- Two memories with rising addresses that hold the same byte at every index are the same list. -/
theorem Memory.ext_of_lookup {m₁ m₂ : Memory} {lo : Nat} (h₁ : Memory.risesFrom lo m₁ = true)
    (h₂ : Memory.risesFrom lo m₂ = true) (h : ∀ i, Memory.lookup m₁ i = Memory.lookup m₂ i) : m₁ = m₂ := by
  induction m₁ generalizing m₂ lo with
  | nil =>
    cases m₂ with
    | nil => rfl
    | cons c m₂ => simpa [Memory.lookup] using h c.1
  | cons c m₁ ih =>
    cases m₂ with
    | nil => simpa [Memory.lookup] using h c.1
    | cons d m₂ =>
      simp only [Memory.risesFrom, Bool.and_eq_true, decide_eq_true_eq] at h₁ h₂
      have hc := h c.1
      have hd := h d.1
      have hcd : c.1 = d.1 := by
        rcases Nat.lt_trichotomy c.1 d.1 with hlt | heq | hgt
        · simp [Memory.lookup, Nat.ne_of_lt hlt, Memory.lookup_below h₂.2 (by omega : c.1 < d.1 + 1)] at hc
        · exact heq
        · simp [Memory.lookup, Nat.ne_of_lt hgt, Memory.lookup_below h₁.2 (by omega : d.1 < c.1 + 1)] at hd
      have hv : c.2 = d.2 := by simpa [Memory.lookup, hcd] using hc
      have htail : m₁ = m₂ := by
        refine ih h₁.2 (by rw [hcd]; exact h₂.2) (fun i => ?_)
        by_cases hi : i = c.1
        · rw [Memory.lookup_below h₁.2 (by omega), Memory.lookup_below h₂.2 (by omega)]
        · have := h i
          simpa [Memory.lookup, hi, show ¬ i = d.1 by omega] using this
      rw [htail, Prod.ext hcd hv]

/-- Canonical memories are equal as data exactly when they read alike whatever the unlisted bytes are. -/
theorem Memory.eq_of_reads_alike {size : Nat} {m₁ m₂ : Memory} (h₁ : Memory.wf size m₁ = true)
    (h₂ : Memory.wf size m₂ = true)
    (h : ∀ (background : Nat → Byte) i,
      (Memory.lookup m₁ i).getD (background i) = (Memory.lookup m₂ i).getD (background i)) : m₁ = m₂ := by
  simp only [Memory.wf, Bool.and_eq_true] at h₁ h₂
  refine Memory.ext_of_lookup h₁.1 h₂.1 (fun i => ?_)
  have hz := h (fun _ => 0) i
  have ho := h (fun _ => 1) i
  have h01 : (0 : Byte) ≠ 1 := by decide
  cases e₁ : Memory.lookup m₁ i <;> cases e₂ : Memory.lookup m₂ i <;> simp only [e₁, e₂, Option.getD] at hz ho
  · rfl
  · exact absurd (hz.trans ho.symm) h01
  · exact absurd (hz.symm.trans ho) h01
  · exact congrArg some hz

/-! ## The two buffers -/

@[simp] theorem State.redrawObuf_obufByte (s : State) (i : Nat) :
    s.redrawObuf.obufByte i = Config.freeObuf s.draws i := rfl

theorem State.ibufByte_congr {s t : State} (h : t.ibuf = s.ibuf) (i : Nat) : t.ibufByte i = s.ibufByte i := by
  simp [State.ibufByte, h]

theorem State.obufByte_congr {s t : State} (h : t.obuf = s.obuf) (hd : t.obufDraw = s.obufDraw) (i : Nat) :
    t.obufByte i = s.obufByte i := by
  simp [State.obufByte, h, hd]

end Sys2Proof.Machine
end

