-- ==== Sys2Proof/Laws/Bits.lean ====
section
/-! SUPPORT. The laws of bit packing, of the input bytes and of the bus's byte order. -/

namespace Sys2Proof.Machine

/-! ## Most significant bit first -/

theorem packMsb_lt (n : Nat) (bits : List Bool) : packMsb n bits < 2 ^ n := by
  induction n generalizing bits with
  | zero => simp [packMsb]
  | succ n ih =>
    have h1 := ih bits.tail
    have h2 : (bits.headD false).toNat ≤ 1 := Bool.toNat_le _
    rw [packMsb, Nat.pow_succ]
    nlinarith [Nat.mul_le_mul_right (2 ^ n) h2]

/-- Bit `n − 1 − j` of the packed number is bit `j` of the sequence, 0 past its end. -/
theorem packMsb_testBit (n : Nat) (bits : List Bool) (j : Nat) (hj : j < n) :
    (packMsb n bits).testBit (n - 1 - j) = bits.getD j false := by
  induction n generalizing bits j with
  | zero => omega
  | succ n ih =>
    have hlt := packMsb_lt n bits.tail
    rw [packMsb, Nat.mul_comm]
    rcases j with _ | j
    · have hz : n + 1 - 1 - 0 = n := by omega
      rw [hz, Nat.testBit_two_pow_mul_add _ hlt, if_neg (by omega), Nat.sub_self]
      cases bits with
      | nil => simp
      | cons b bits => cases b <;> simp
    · have hn : n + 1 - 1 - (j + 1) = n - 1 - j := by omega
      rw [hn, Nat.testBit_two_pow_mul_add _ hlt, if_pos (by omega), ih _ _ (by omega)]
      cases bits <;> simp

@[simp] theorem packBytes_length (n : Nat) (bits : List Bool) : (packBytes n bits).length = n := by
  induction n generalizing bits with
  | zero => rfl
  | succ n ih => simp [packBytes, ih]

/-- Bit `7 − j` of packed byte `i` is bit `8i + j` of the sequence, 0 past its end (R66). -/
theorem packBytes_bit (n : Nat) (bits : List Bool) (i j : Nat) (hi : i < n) (hj : j < 8) :
    (((packBytes n bits)[i]?).getD 0).getLsbD (7 - j) = bits.getD (8 * i + j) false := by
  induction n generalizing bits i with
  | zero => omega
  | succ n ih =>
    rcases i with _ | i
    · have h := packMsb_testBit 8 bits j hj
      rw [packBytes, List.getElem?_cons_zero, Option.getD_some, BitVec.getLsbD_ofNat,
        decide_eq_true (by omega : 7 - j < 8), Bool.true_and, Nat.mul_zero, Nat.zero_add]
      exact h
    · have h := ih (bits.drop 8) i (by omega)
      rw [packBytes, List.getElem?_cons_succ, h]
      simp only [List.getD_eq_getElem?_getD, List.getElem?_drop]
      congr 2
      omega

@[simp] theorem asciiBytes_length (bits : List Bool) : (asciiBytes bits).length = bits.length := by
  simp [asciiBytes]

/-! ## The input bytes -/

@[simp] theorem State.ibufBytes_length (s : State) (i n : Nat) : (s.ibufBytes i n).length = n := by
  induction n generalizing i with
  | zero => rfl
  | succ n ih => simp [State.ibufBytes, ih]

theorem State.ibufBytes_getElem (s : State) (i n k : Nat) (h : k < (s.ibufBytes i n).length) :
    (s.ibufBytes i n)[k] = s.ibufByte (i + k) := by
  induction n generalizing i k with
  | zero => simp [State.ibufBytes] at h
  | succ n ih =>
    rcases k with _ | k
    · simp [State.ibufBytes]
    · simp only [State.ibufBytes, List.getElem_cons_succ]
      rw [ih]
      congr 1
      omega

theorem State.ibufBytes_append (s : State) (i m n : Nat) :
    s.ibufBytes i (m + n) = s.ibufBytes i m ++ s.ibufBytes (i + m) n := by
  induction m generalizing i with
  | zero => simp [State.ibufBytes]
  | succ m ih =>
    rw [show m + 1 + n = (m + n) + 1 by omega, State.ibufBytes, State.ibufBytes, ih]
    simp only [List.cons_append]
    rw [show i + 1 + m = i + (m + 1) by omega]

/-! ## Little-endian order -/

theorem littleEndian_lt (bytes : List Byte) : littleEndian bytes < 256 ^ bytes.length := by
  induction bytes with
  | nil => simp [littleEndian]
  | cons b bytes ih =>
    have hb : b.toNat < 256 := b.isLt
    rw [littleEndian, List.length_cons, Nat.pow_succ]
    nlinarith

@[simp] theorem windowBytes_length (f : Nat → Byte) (i n : Nat) : (windowBytes f i n).length = n := by
  induction n generalizing i with
  | zero => rfl
  | succ n ih => simp [windowBytes, ih]

theorem windowBytes_getElem (f : Nat → Byte) (i n k : Nat) (h : k < (windowBytes f i n).length) :
    (windowBytes f i n)[k] = f (i + k) := by
  induction n generalizing i k with
  | zero => simp [windowBytes] at h
  | succ n ih =>
    rcases k with _ | k
    · simp [windowBytes]
    · simp only [windowBytes, List.getElem_cons_succ]
      rw [ih, Nat.add_right_comm, Nat.add_assoc]

/-- Byte `j` of a little-endian value. -/
theorem littleEndian_byte (bytes : List Byte) (j : Nat) (h : j < bytes.length) :
    littleEndian bytes / 2 ^ (8 * j) % 2 ^ 8 = bytes[j].toNat := by
  induction bytes generalizing j with
  | nil => simp at h
  | cons b bytes ih =>
    have hb : b.toNat < 256 := b.isLt
    rcases j with _ | j
    · simp only [littleEndian, Nat.mul_zero, Nat.pow_zero, Nat.div_one, List.getElem_cons_zero]
      omega
    · have h' : j < bytes.length := by simpa using h
      rw [List.getElem_cons_succ, ← ih j h', littleEndian, show 8 * (j + 1) = 8 + 8 * j by omega, Nat.pow_add,
        ← Nat.div_div_eq_div_mul]
      congr 2
      omega

/-- Byte `j` of a word assembled from at most four bytes (R64). -/
theorem assemble_byte (bytes : List Byte) (hn : bytes.length ≤ 4) (j : Nat) (h : j < bytes.length) :
    (assemble bytes).extractLsb' (8 * j) 8 = bytes[j] := by
  have hlt : littleEndian bytes < 2 ^ 32 :=
    (littleEndian_lt bytes).trans_le (by simpa using Nat.pow_le_pow_right (n := 256) (by decide) hn)
  apply BitVec.eq_of_toNat_eq
  rw [← littleEndian_byte bytes j h]
  rw [assemble, BitVec.extractLsb'_toNat, BitVec.toNat_ofNat, Nat.mod_eq_of_lt hlt, Nat.shiftRight_eq_div_pow]

/-- The bits above the bytes a word was assembled from are 0 (R64). -/
theorem assemble_high (bytes : List Byte) (k : Nat) (h : 8 * bytes.length ≤ k) : (assemble bytes).getLsbD k = false := by
  have hlt : littleEndian bytes < 2 ^ k :=
    (littleEndian_lt bytes).trans_le (by
      rw [show (256 : Nat) = 2 ^ 8 from rfl, ← Nat.pow_mul]
      exact Nat.pow_le_pow_right (by decide) h)
  rw [assemble, BitVec.getLsbD_ofNat, Nat.testBit_lt_two_pow hlt, Bool.and_false]

@[simp] theorem busBytes_length (w : Word) (j n : Nat) : (busBytes w j n).length = n := by
  induction n generalizing j with
  | zero => rfl
  | succ n ih => simp [busBytes, ih]

end Sys2Proof.Machine
end

