-- ==== Sys2Proof/Laws/Tables.lean ====
section
/-! SUPPORT. The laws of the tables FT, NODE and CT: what each entry is after an update. -/

namespace Sys2Proof.Machine

/-! ## FT and COUNT's loop -/

@[simp] theorem State.countByte_ftAt_same (s : State) (b : Byte) :
    (s.countByte b).ftAt b =
      { count := (s.ftAt b).count + 1,
        rank := if (s.ftAt b).count = 0 then s.nsym.setWidth 8 else (s.ftAt b).rank } := by
  simp [State.countByte, State.ftAt]

theorem State.countByte_ftAt_ne (s : State) {b x : Byte} (h : x ≠ b) : (s.countByte b).ftAt x = s.ftAt x := by
  have hn : b.toNat ≠ x.toNat := fun e => h (BitVec.eq_of_toNat_eq e.symm)
  simp [State.countByte, State.ftAt, hn]

/-- COUNT's loop writes FT, NSYM and TOTAL only. -/
theorem State.countBytes_frame (s : State) (input : List Byte) :
    s.countBytes input =
      { s with ft := (s.countBytes input).ft, nsym := (s.countBytes input).nsym, total := (s.countBytes input).total } := by
  induction input generalizing s with
  | nil => rfl
  | cons b input ih =>
    have h := ih (s.countByte b)
    exact h

theorem State.countBytes_append (s : State) (x y : List Byte) :
    s.countBytes (x ++ y) = (s.countBytes x).countBytes y := by
  simp [State.countBytes]

/-! ## NODE -/

theorem nodeAt_setNode_same (nodes : Arena) {id : Nat} (v : Node) (h : id < 511) :
    nodeAt (setNode nodes id v) id = v := by
  simp [nodeAt, setNode, h]

theorem nodeAt_setNode_ne (nodes : Arena) {id x : Nat} (v : Node) (h : x ≠ id) :
    nodeAt (setNode nodes id v) x = nodeAt nodes x := by
  simp [nodeAt, setNode, Ne.symm h]

/-! ## CT -/

@[simp] theorem recordCode_same (ct : Vector CodeEntry 256) (sym : Sym) (path : List Bool) :
    (recordCode ct (sym, path))[sym.toNat]'sym.isLt = { cbits := path } := by
  simp [recordCode]

theorem recordCode_ne (ct : Vector CodeEntry 256) {sym x : Sym} (path : List Bool) (h : x ≠ sym) :
    (recordCode ct (sym, path))[x.toNat]'x.isLt = ct[x.toNat]'x.isLt := by
  have hn : sym.toNat ≠ x.toNat := fun e => h (BitVec.eq_of_toNat_eq e.symm)
  simp [recordCode, hn]

/-! ## Paths -/

@[simp] theorem follow_nil (nodes : Arena) (id : Nat) : follow nodes id [] = some id := rfl

/-- A path in two parts: the second starts where the first ends. -/
theorem follow_append (nodes : Arena) (id : Nat) (p q : List Bool) :
    follow nodes id (p ++ q) = (follow nodes id p).bind fun x => follow nodes x q := by
  induction p generalizing id with
  | nil => rfl
  | cons b p ih =>
    rw [List.cons_append, follow, follow]
    by_cases hk : (nodeAt nodes id).kind = .internal
    · rw [if_pos hk, if_pos hk, ih]
    · rw [if_neg hk, if_neg hk]
      rfl

end Sys2Proof.Machine
end

