-- ==== Sys2Proof/Laws/Ops.lean ====
section
/-! SUPPORT. What the shared operations of a command can do, said once each: the error entry, the life of a command,
and `exec`. -/

namespace Sys2Proof.Machine

/-! ## The error entry -/

/-- The error entry writes the status, OUT_LEN and OUT_BITS, and OBUF with its draw: nothing else (R104). -/
theorem State.raiseError_frame (s : State) (codec : Bool) (e : CmdError) :
    s.raiseError codec e =
      { s with
        outLen := if codec then 0 else s.outLen
        outBits := if codec then 0 else s.outBits
        obuf := if codec && e.inScan then [] else s.obuf
        obufDraw := if codec && e.inScan then s.draws else s.obufDraw
        draws := if codec && e.inScan then s.draws + 1 else s.draws
        errCode := e.code
        errpos := e.info
        busy := false
        done := true } := by
  cases codec <;> cases h : e.inScan <;> simp [State.raiseError, h, State.failStatus, State.redrawObuf]

/-- A command that is not ENCODE or DECODE: only the status changes (R104). -/
theorem State.raiseError_plain (s : State) (e : CmdError) :
    s.raiseError false e = { s with errCode := e.code, errpos := e.info, busy := false, done := true } := rfl

/-! ## The life of a command -/

/-- A command ends in one of three ways: the phase check's error, the body's error, or success. -/
theorem runCommand_cases (i : Instr) (body : State → Except CmdError State) (s : State) :
    (∃ e, phaseCheck i s.phase s.lcmd = some e ∧ runCommand i body s = .next (s.raiseError i.isCodec e)) ∨
    (∃ e, phaseCheck i s.phase s.lcmd = none ∧ body s = .error e ∧
      runCommand i body s = .next (s.raiseError i.isCodec e)) ∨
    (∃ t, phaseCheck i s.phase s.lcmd = none ∧ body s = .ok t ∧ runCommand i body s = .next t.succeed) := by
  unfold runCommand
  cases hp : phaseCheck i s.phase s.lcmd with
  | some e => exact .inl ⟨e, rfl, rfl⟩
  | none =>
    cases hb : body s with
    | error e => exact .inr (.inl ⟨e, rfl, rfl, rfl⟩)
    | ok t => exact .inr (.inr ⟨t, rfl, rfl, rfl⟩)

theorem runCommand_of_check {i : Instr} {body : State → Except CmdError State} {s : State} {e : CmdError}
    (h : phaseCheck i s.phase s.lcmd = some e) : runCommand i body s = .next (s.raiseError i.isCodec e) := by
  simp [runCommand, h]

theorem runCommand_of_ok {i : Instr} {body : State → Except CmdError State} {s t : State}
    (h : phaseCheck i s.phase s.lcmd = none) (hb : body s = .ok t) : runCommand i body s = .next t.succeed := by
  simp [runCommand, h, hb]

theorem runCommand_of_error {i : Instr} {body : State → Except CmdError State} {s : State} {e : CmdError}
    (h : phaseCheck i s.phase s.lcmd = none) (hb : body s = .error e) :
    runCommand i body s = .next (s.raiseError i.isCodec e) := by
  simp [runCommand, h, hb]

/-- Every command's body (R102 step 3). -/
def bodyOf : Instr → State → Except CmdError State
  | .nop => nopBody
  | .clear => clearBody
  | .count => countBody
  | .build => buildBody
  | .encode fmt => encodeBody fmt
  | .decode fmt => decodeBody fmt
  | .travStart => travStartBody
  | .travNext => travNextBody
  | .query sym => queryBody sym

/-- `exec` is the life of a command with that command's body. -/
theorem exec_eq_runCommand (i : Instr) (s : State) : exec i s = runCommand i (bodyOf i) s := by
  cases i <;> rfl

/-- What a command can do: fail with an error of the phase check or of its body, or succeed with its body's state. -/
theorem exec_cases {i : Instr} {s t : State} (h : exec i s = .next t) :
    (∃ e, phaseCheck i s.phase s.lcmd = some e ∧ t = s.raiseError i.isCodec e) ∨
    (∃ e, phaseCheck i s.phase s.lcmd = none ∧ bodyOf i s = .error e ∧ t = s.raiseError i.isCodec e) ∨
    (∃ u, phaseCheck i s.phase s.lcmd = none ∧ bodyOf i s = .ok u ∧ t = u.succeed) := by
  rw [exec_eq_runCommand] at h
  rcases runCommand_cases i (bodyOf i) s with ⟨e, hp, hr⟩ | ⟨e, hp, hb, hr⟩ | ⟨u, hp, hb, hr⟩
  · exact .inl ⟨e, hp, by rw [hr] at h; cases h; rfl⟩
  · exact .inr (.inl ⟨e, hp, hb, by rw [hr] at h; cases h; rfl⟩)
  · exact .inr (.inr ⟨u, hp, hb, by rw [hr] at h; cases h; rfl⟩)

/-- The phase check's error is never a scan error, so it leaves OBUF as it was. -/
theorem phaseCheck_not_inScan {i : Instr} {p : Phase} {w : Word} {e : CmdError} (h : phaseCheck i p w = some e) :
    e.inScan = false := by
  cases i <;> cases p <;> simp [phaseCheck] at h <;> subst h <;> rfl

end Sys2Proof.Machine
end

