-- ==== Sys2Proof/Laws/PerInstr.lean ====
section
/-! SUPPORT. Statements about every command as syntax, one lemma per constructor. -/

/-- The word of a command matches that command's row of the opcode map, and its reserved field is 0 (R82, R85). -/
def Sys2Proof.Laws.MatchesRow.Statement (i : Sys2Proof.Instr) : Prop :=
  Sys2Proof.encodeWord i &&& i.maskWord = i.matchWord ∧ Sys2Proof.rsvClear (Sys2Proof.encodeWord i) = true

theorem Sys2Proof.Laws.MatchesRow.nop : Sys2Proof.Laws.MatchesRow.Statement .nop := ⟨rfl, rfl⟩
theorem Sys2Proof.Laws.MatchesRow.clear : Sys2Proof.Laws.MatchesRow.Statement .clear := ⟨rfl, rfl⟩
theorem Sys2Proof.Laws.MatchesRow.count : Sys2Proof.Laws.MatchesRow.Statement .count := ⟨rfl, rfl⟩
theorem Sys2Proof.Laws.MatchesRow.build : Sys2Proof.Laws.MatchesRow.Statement .build := ⟨rfl, rfl⟩

theorem Sys2Proof.Laws.MatchesRow.encode (fmt : Sys2Proof.Fmt) : Sys2Proof.Laws.MatchesRow.Statement (.encode fmt) := by
  cases fmt <;> exact ⟨rfl, rfl⟩

theorem Sys2Proof.Laws.MatchesRow.decode (fmt : Sys2Proof.Fmt) : Sys2Proof.Laws.MatchesRow.Statement (.decode fmt) := by
  cases fmt <;> exact ⟨rfl, rfl⟩

theorem Sys2Proof.Laws.MatchesRow.travStart : Sys2Proof.Laws.MatchesRow.Statement .travStart := ⟨rfl, rfl⟩
theorem Sys2Proof.Laws.MatchesRow.travNext : Sys2Proof.Laws.MatchesRow.Statement .travNext := ⟨rfl, rfl⟩

theorem Sys2Proof.Laws.MatchesRow.query (sym : Sys2Proof.Sym) : Sys2Proof.Laws.MatchesRow.Statement (.query sym) := by
  have h : ∀ x : Sys2Proof.Sym,
      Sys2Proof.encodeWord (.query x) &&& (0xFFFF00FF : Sys2Proof.Word) = 0x00000008 ∧
        Sys2Proof.rsvClear (Sys2Proof.encodeWord (.query x)) = true := by decide +kernel
  exact h sym
end

