-- ==== Sys2Proof/Laws/Step.lean ====
section
/-! SUPPORT. What a host access and a step can do, said once each. -/

namespace Sys2Proof.Machine

/-! ## A host access -/

/-- What a read leaves: its answer and, for a read R239 leaves unspecified, one more draw. -/
theorem State.busRead_frame (s : State) (a : BusAccess) :
    s.busRead a = { s with answer := (s.busRead a).answer, draws := (s.busRead a).draws } := by
  unfold State.busRead State.readReg State.readIbuf State.readObuf
  split
  · split
    · rfl
    · split <;> rfl
  · rfl
  · split <;> rfl
  · rfl

/-- A host access that is answered leaves every table, the phase, the result registers and OBUF as they were: it writes
at most the status flags, LCMD, CTRL, LEN, BITLEN, IBUF, the answer and the model's count of draws. -/
theorem hostAccess_frame {a : BusAccess} {s t : State} (h : hostAccess a s = .next t) :
    t = { s with answer := t.answer, draws := t.draws, busy := t.busy, done := t.done, cmdOvr := t.cmdOvr,
                 errCode := t.errCode, ie := t.ie, len := t.len, bitlen := t.bitlen, lcmd := t.lcmd, ibuf := t.ibuf } := by
  unfold hostAccess at h
  split at h
  · split at h
    · unfold State.busWrite at h
      split at h
      · unfold State.writeReg at h
        split at h
        case h_2 => cases h; unfold State.writeCmd; split <;> rfl
        case h_5 => split at h <;> cases h; rfl
        case h_6 => split at h <;> cases h; rfl
        all_goals (cases h; rfl)
      · unfold State.writeIbuf at h
        split at h <;> cases h; rfl
      · cases h; rfl
      · cases h; rfl
    · cases h
      rw [State.busRead_frame]
  · cases h; rfl

/-- A host access answers a next state or the fault HOST_HAZARD. -/
theorem hostAccess_outcome (a : BusAccess) (s : State) :
    (∃ t, hostAccess a s = .next t) ∨ (s.busy = true ∧ hostAccess a s = .fault .hostHazard) := by
  unfold hostAccess
  split
  · split
    · unfold State.busWrite
      split
      · unfold State.writeReg
        split
        case h_5 => cases hb : s.busy <;> simp
        case h_6 => cases hb : s.busy <;> simp
        all_goals exact .inl ⟨_, rfl⟩
      · unfold State.writeIbuf
        cases hb : s.busy && decide (a.offset < s.params.ibufSize)
        · exact .inl ⟨_, rfl⟩
        · exact .inr ⟨(Bool.and_eq_true _ _ ▸ hb).1, rfl⟩
      · exact .inl ⟨_, rfl⟩
      · exact .inl ⟨_, rfl⟩
    · exact .inl ⟨_, rfl⟩
  · exact .inl ⟨_, rfl⟩

/-! ## The engine -/

/-- The engine's turn: nothing on an idle block, else the latched command or the ILLEGAL_COMMAND error. -/
theorem engineTurn_cases (s : State) :
    (s.busy = false ∧ engineTurn s = .next s) ∨
    (s.busy = true ∧ ∃ i, decodeWord s.lcmd = .ok i ∧ engineTurn s = exec i s) ∨
    (s.busy = true ∧ ∃ r, decodeWord s.lcmd = .error r ∧
      engineTurn s = .next (s.raiseError false ⟨.illegalCommand, s.lcmd⟩)) := by
  unfold engineTurn engineRun
  cases hb : s.busy
  · exact .inl ⟨rfl, rfl⟩
  · cases hd : decodeWord s.lcmd with
    | ok i => exact .inr (.inl ⟨rfl, i, rfl, rfl⟩)
    | error r => exact .inr (.inr ⟨rfl, r, rfl, rfl⟩)

/-- A running command's engine turn always answers a next state. -/
theorem engineTurn_next (s : State) : ∃ t, engineTurn s = .next t := by
  rcases engineTurn_cases s with ⟨-, h⟩ | ⟨-, i, -, h⟩ | ⟨-, r, -, h⟩
  · exact ⟨s, h⟩
  · rw [h, exec_eq_runCommand]
    rcases runCommand_cases i (bodyOf i) s with ⟨_, _, hr⟩ | ⟨_, _, _, hr⟩ | ⟨_, _, _, hr⟩ <;> exact ⟨_, hr⟩
  · exact ⟨_, h⟩

/-! ## A step -/

/-- What a step that answers a next state did: the engine's turn, a host access, an access and then the completion in
one cycle, or reset. -/
theorem step_cases {s t : State} (h : step s = .next t) :
    ((s.events = [] ∨ ∃ es, s.events = .complete :: es) ∧ engineTurn s.takeEvent = .next t) ∨
    (∃ a es, (s.events = .access a :: es ∨ (s.events = .accessAtCompletion a :: es ∧ s.busy = false)) ∧
      hostAccess a s.takeEvent = .next t) ∨
    (∃ a es u, s.events = .accessAtCompletion a :: es ∧ s.busy = true ∧ hostAccess a s.takeEvent = .next u ∧
      engineTurn u = .next t) ∨
    (∃ es, s.events = .reset :: es ∧ t = s.takeEvent.hardReset) := by
  unfold step at h
  split at h
  · rename_i he
    exact .inl ⟨.inl he, h⟩
  · rename_i e es he
    unfold hostEvent at h
    cases e with
    | access a => exact .inr (.inl ⟨a, es, .inl he, h⟩)
    | complete => exact .inl ⟨.inr ⟨es, he⟩, h⟩
    | accessAtCompletion a =>
      replace h : accessThenComplete a s.takeEvent = .next t := h
      rw [accessThenComplete, State.takeEvent_busy] at h
      by_cases hb : s.busy = true
      · rw [if_pos hb] at h
        cases hu : hostAccess a s.takeEvent with
        | next u => rw [hu] at h; exact .inr (.inr (.inl ⟨a, es, u, he, hb, hu, h⟩))
        | fault r => rw [hu] at h; cases h
        | refused r => rw [hu] at h; cases h
      · rw [if_neg hb] at h
        exact .inr (.inl ⟨a, es, .inr ⟨he, by simpa using hb⟩, h⟩)
    | reset =>
      cases h
      exact .inr (.inr (.inr ⟨es, he, rfl⟩))
    | resetDuring a => cases h

/-- The step that a fetched word gives runs exactly that word's command. -/
theorem step_withFetchWord (s : State) (nbits w : Nat) :
    step (s.withFetchWord nbits w) =
      engineRun { s.accept (tableWord nbits w) with events := s.events, answer := none } := rfl

end Sys2Proof.Machine
end

