-- ==== Sys2Proof/Tests/Slice0.lean ====
section
/-! SUPPORT. The model's own tests. Every expected value comes from the spec: its opcode map (spec/30_encoding.md R82,
R89), its test vectors (spec/95_test_vectors.md) or the rule named; then, for every statement with hypotheses, a
concrete state and operands that meet them. -/

namespace Sys2Proof.Tests

set_option Elab.async false

open Sys2Proof Sys2Proof.Machine

/-! ## WellFormed refuses what the spec calls ill-formed -/

theorem test_reserved_opcode_refused : opcodeDefined 0x00000009 = false := by decide
theorem test_reserved_bit_refused : rsvClear 0x00020004 = false := by decide
theorem test_fmt_on_count_refused : fmtAllowed 0x00010002 = false := by decide
theorem test_sym_on_encode_refused : symAllowed 0x00006104 = false := by decide
theorem test_illegal_word_refused : commandWordLegal 0x00010008 = false := by decide
theorem test_legal_word_accepted : commandWordLegal 0x00006108 = true := by decide
theorem test_size_three_refused : BusAccess.sizeLegal ⟨true, 3, 0x10000, 0⟩ = false := by decide
theorem test_misaligned_refused : BusAccess.aligned ⟨false, 2, 0x10001, 0⟩ = false := by decide
theorem test_narrow_register_access_refused : BusAccess.widthAllowed ⟨true, 0, 0x00014, 5⟩ = false := by decide
theorem test_illegal_access_refused : BusAccess.legal ⟨false, 1, 0x00014, 0⟩ = false := by decide
theorem test_empty_buffer_refused : Params.legal ⟨0, 65536, 0⟩ = false := by decide
theorem test_oversized_buffer_refused : Params.legal ⟨65536, 65537, 0⟩ = false := by decide

/-! ## Decoding: every constructor's word, written bit by bit as RSV FMT SYM OPC (R81) -/

theorem test_decode_nop : decodeWord 0b000000000000000_0_00000000_00000000 = .ok .nop := rfl
theorem test_decode_clear : decodeWord 0b000000000000000_0_00000000_00000001 = .ok .clear := rfl
theorem test_decode_count : decodeWord 0b000000000000000_0_00000000_00000010 = .ok .count := rfl
theorem test_decode_build : decodeWord 0b000000000000000_0_00000000_00000011 = .ok .build := rfl
theorem test_decode_encode_p : decodeWord 0b000000000000000_0_00000000_00000100 = .ok (.encode .packed) := rfl
theorem test_decode_encode_a : decodeWord 0b000000000000000_1_00000000_00000100 = .ok (.encode .ascii) := rfl
theorem test_decode_decode_p : decodeWord 0b000000000000000_0_00000000_00000101 = .ok (.decode .packed) := rfl
theorem test_decode_decode_a : decodeWord 0b000000000000000_1_00000000_00000101 = .ok (.decode .ascii) := rfl
theorem test_decode_trav_start : decodeWord 0b000000000000000_0_00000000_00000110 = .ok .travStart := rfl
theorem test_decode_trav_next : decodeWord 0b000000000000000_0_00000000_00000111 = .ok .travNext := rfl
theorem test_decode_query_a : decodeWord 0b000000000000000_0_01100001_00001000 = .ok (.query 0x61) := rfl
/-- T-ILL-2, T-ILL-3, T-ILL-5 and T-ILL-7: each reason for an illegal word. -/
theorem test_illegal_words_rejected_by_name :
    decodeWord 0x000000FF = .error .reservedOpcode ∧ decodeWord 0x00010002 = .error .fmtNotUsed ∧
    decodeWord 0x00006104 = .error .symNotUsed ∧ decodeWord 0x80000000 = .error .reservedBits := ⟨rfl, rfl, rfl, rfl⟩
theorem test_table_word_decodes : decodeTableWord 32 0x00006308 = some (.query 0x63) := rfl

/-! ## Small states -/

/-- Bytes listed in a memory from index 0. -/
def image (bytes : List Byte) : Memory := Memory.writeBytes [] 0 bytes

/-- The state a command leaves, from one in which it is latched. -/
def after (i : Instr) (s : State) : State :=
  match exec i (s.accept (encodeWord i)) with
  | .next t => t
  | .fault _ => s
  | .refused _ => s

/-- The block with these bytes in IBUF and LEN and BITLEN set. -/
def loaded (bytes : List Byte) (bits : Nat) (s : State) : State :=
  { s with ibuf := image bytes, len := BitVec.ofNat 32 bytes.length, bitlen := BitVec.ofNat 32 bits }

/-- The corpus counted, phase COLLECT. -/
def counted (corpus : List Byte) : State := after .count (loaded corpus 0 State.reset)

/-- The corpus counted and its tree built. -/
def built (corpus : List Byte) : State := after .build (counted corpus)

/-- "aaaabbbcc" (R120). -/
def corpusA : List Byte := [0x61, 0x61, 0x61, 0x61, 0x62, 0x62, 0x62, 0x63, 0x63]

/-- The machine with smaller buffers. -/
def sized (ibufSize obufSize : Nat) (s : State) : State := { s with params := ⟨ibufSize, obufSize, 0⟩ }

/-- Two register words of a state. -/
def statusAndPos (s : State) : Word × Word := (s.statusWord, s.errpos)

/-! ## One command each, against the spec's vectors -/

/-- T-CTL-1. -/
theorem test_nop : statusAndPos (after .nop State.reset) = (0x00000002, 0) := by decide +kernel
/-- T-CTL-3. -/
theorem test_clear : statusAndPos (after .clear (built corpusA)) = (0x00000002, 0) ∧
    (after .clear (built corpusA)).total = 0 := by decide +kernel
/-- T-CNT-1. -/
theorem test_count : (counted corpusA).statusWord = 0x00000012 ∧ (counted corpusA).ftAt 0x63 = ⟨2, 2⟩ ∧
    (counted corpusA).nsym = 3 ∧ (counted corpusA).total = 9 := by decide +kernel
/-- T-CNT-6: the corpus total is an exact sum. -/
theorem test_count_total_limit :
    statusAndPos (after .count { loaded corpusA 0 State.reset with total := 0xFFFFFFF8 }) = (0x00000802, 0xFFFFFFFF) := by
  decide +kernel
/-- T-BLD-1: the second merge has the leaf a on the left. -/
theorem test_build : (built corpusA).statusWord = 0x00000022 ∧ (built corpusA).root = 4 ∧
    nodeAt (built corpusA).node 4 = ⟨.internal, 0, 9, 0, 3⟩ ∧ ((built corpusA).ctAt 0x63).cbits = [true, false] := by
  decide +kernel
/-- T-BLD-5: a leaf that ties with an internal node is selected first. -/
theorem test_build_tie : nodeAt (built [0x61, 0x61, 0x62, 0x63]).node 4 = ⟨.internal, 0, 4, 0, 3⟩ := by decide +kernel
/-- T-QRY-3. -/
theorem test_query : (after (.query 0x63) (built corpusA)).resAt 0 = 2 ∧
    (after (.query 0x63) (built corpusA)).resAt 1 = 0x63020102 ∧
    (after (.query 0x63) (built corpusA)).resAt 2 = 0x80000000 := by decide +kernel
/-- T-QRY-6: in COLLECT a present symbol has CLEN 0. -/
theorem test_query_collect : (after (.query 0x61) (counted corpusA)).resAt 1 = 0x61000100 := by decide +kernel
/-- T-ENC-4. -/
theorem test_encode : (after (.encode .packed) (loaded [0x63, 0x61, 0x62] 0 (built corpusA))).obufByte 0 = 0x98 ∧
    (after (.encode .packed) (loaded [0x63, 0x61, 0x62] 0 (built corpusA))).outBits = 5 := by decide +kernel
/-- T-ENC-9: the third byte does not fit two ASCII bits. -/
theorem test_encode_capacity :
    statusAndPos (after (.encode .ascii) (loaded [0x61, 0x61, 0x61] 0 (sized 65536 2 (built [0x61, 0x62])))) =
      (0x00000822, 2) := by decide +kernel
/-- T-DEC-7. -/
theorem test_decode : (after (.decode .packed) (loaded [0xB0] 4 (built corpusA))).obufByte 0 = 0x63 ∧
    (after (.decode .packed) (loaded [0xB0] 4 (built corpusA))).obufByte 1 = 0x62 ∧
    (after (.decode .packed) (loaded [0xB0] 4 (built corpusA))).outLen = 2 := by decide +kernel
/-- T-DEC-11: a malformed token wins over the truncation. -/
theorem test_decode_malformed :
    statusAndPos (after (.decode .ascii) (loaded [0x31, 0x78] 0 (built corpusA))) = (0x00000422, 1) := by decide +kernel
/-- T-TRV-4. -/
theorem test_trav_start : (after .travNext (after .travStart (after .travNext (built corpusA)))).resAt 1 = 0x01611000 := by
  decide +kernel
/-- T-TRV-1, the second entry: ROOT, INTERNAL, depth 0. -/
theorem test_trav_next : (after .travNext (after .travNext (built corpusA))).resAt 1 = 0x00002004 := by decide +kernel
/-- T-TRV-3, the third entry: VOID. -/
theorem test_trav_void :
    (after .travNext (after .travNext (after .travNext (built [0x7A, 0x7A, 0x7A])))).resAt 1 = 0x01003001 := by
  decide +kernel

/-! ## The bus and the step -/

/-- T-BUS-5: a halfword of the word written by T-BUS-3. -/
theorem test_halfword_read :
    (match hostAccess ⟨false, 1, 0x10002, 0⟩ { State.reset with ibuf := image [0x61, 0x62, 0x62, 0x63] } with
      | .next t => t.hbRdata
      | .fault _ => none
      | .refused _ => none) = some 0x00006362 := by decide +kernel
/-- T-BUS-3. -/
theorem test_word_write :
    (match hostAccess ⟨true, 2, 0x10000, 0x63626261⟩ State.reset with
      | .next t => t.ibuf
      | .fault _ => []
      | .refused _ => []) = image [0x61, 0x62, 0x62, 0x63] := by decide +kernel
/-- T-HAZ-1: BUILD running, NOP dropped. -/
theorem test_dropped_command :
    (match step { (counted corpusA).accept 3 with events := [.accessAtCompletion ⟨true, 2, 0x00008, 0⟩] } with
      | .next t => t.statusWord
      | .fault _ => 0
      | .refused _ => 0) = 0x00000026 := by decide +kernel
/-- T-HAZ-2. -/
theorem test_host_hazard :
    (match step { (loaded corpusA 0 State.reset).accept 2 with events := [.access ⟨true, 2, 0x10000, 0⟩] } with
      | .next _ => false
      | .fault r => r == .hostHazard
      | .refused _ => false) = true := by decide +kernel
/-- T-ILL-9: decode is checked before the phase, and a fetched word runs as the very next step. -/
theorem test_illegal_word_step :
    (match step (State.reset.withFetchWord 32 0x00000104) with
      | .next t => statusAndPos t
      | .fault _ => (0, 0)
      | .refused _ => (0, 0)) = (0x00000602, 0x00000104) := by decide +kernel

/-! ## Witnesses: invariants -/

/-- The corpus 00 01 counted: each symbol once, ranks 0 and 1. -/
def countedAb : State :=
  { State.reset with
    phase := .collect
    nsym := 2
    total := 2
    ft := ((Vector.replicate 256 FreqEntry.absent).set 0 ⟨1, 0⟩).set 1 ⟨1, 1⟩ }

/-- Its tree (T-BLD-8's shape): leaves 0 and 1, root 2; codes "0" and "1". -/
def builtAb : State :=
  { countedAb with
    phase := .built
    node := setNode (setNode (setNode (Vector.replicate 511 Node.unused) 0 ⟨.leaf, 0, 1, 0, 0⟩) 1 ⟨.leaf, 1, 1, 0, 0⟩) 2
      ⟨.internal, 0, 2, 0, 1⟩
    nnodes := 3
    root := 2
    ct := ((Vector.replicate 256 CodeEntry.absent).set 0 ⟨[false]⟩).set 1 ⟨[true]⟩ }

/-- The corpus 00 counted. -/
def countedZ : State :=
  { State.reset with
    phase := .collect
    nsym := 1
    total := 1
    ft := (Vector.replicate 256 FreqEntry.absent).set 0 ⟨1, 0⟩ }

/-- Its tree (R136): the leaf 0, VOID 1 and the root 2; code "0". -/
def builtZ : State :=
  { countedZ with
    phase := .built
    node := setNode (setNode (setNode (Vector.replicate 511 Node.unused) 0 ⟨.leaf, 0, 1, 0, 0⟩) 1 voidNode) 2
      ⟨.internal, 0, 1, 0, 1⟩
    nnodes := 3
    root := 2
    ct := (Vector.replicate 256 CodeEntry.absent).set 0 ⟨[false]⟩ }

theorem countedAb_ftAt (sym : Sym) :
    countedAb.ftAt sym = if sym = 1 then ⟨1, 1⟩ else if sym = 0 then ⟨1, 0⟩ else FreqEntry.absent := by
  have h (k : Nat) (hk : k < 256) : (k = sym.toNat) = (sym = BitVec.ofNat 8 k) :=
    propext ⟨fun h => BitVec.eq_of_toNat_eq (by simp [← h]; omega), fun h => by simp [h]; omega⟩
  simp [State.ftAt, countedAb, Vector.getElem_set, h]

theorem countedZ_ftAt (sym : Sym) : countedZ.ftAt sym = if sym = 0 then ⟨1, 0⟩ else FreqEntry.absent := by
  have h : (0 = sym.toNat) = (sym = 0) :=
    propext ⟨fun h => BitVec.eq_of_toNat_eq (by simp [← h]), fun h => by simp [h]⟩
  simp [State.ftAt, countedZ, Vector.getElem_set, h]

theorem builtAb_ctAt (sym : Sym) :
    builtAb.ctAt sym = if sym = 1 then ⟨[true]⟩ else if sym = 0 then ⟨[false]⟩ else CodeEntry.absent := by
  have h (k : Nat) (hk : k < 256) : (k = sym.toNat) = (sym = BitVec.ofNat 8 k) :=
    propext ⟨fun h => BitVec.eq_of_toNat_eq (by simp [← h]; omega), fun h => by simp [h]; omega⟩
  simp [State.ctAt, builtAb, Vector.getElem_set, h]

theorem builtZ_ctAt (sym : Sym) : builtZ.ctAt sym = if sym = 0 then ⟨[false]⟩ else CodeEntry.absent := by
  have h : (0 = sym.toNat) = (sym = 0) :=
    propext ⟨fun h => BitVec.eq_of_toNat_eq (by simp [← h]), fun h => by simp [h]⟩
  simp [State.ctAt, builtZ, Vector.getElem_set, h]

theorem countedAb_present : countedAb.present = fun sym => sym == 1 || sym == 0 := by
  funext sym
  rw [State.present, countedAb_ftAt]
  by_cases h1 : sym = 1
  · rw [h1]; rfl
  · by_cases h0 : sym = 0
    · rw [h0]; rfl
    · rw [if_neg h1, if_neg h0, beq_eq_false_iff_ne.2 h1, beq_eq_false_iff_ne.2 h0]; rfl

theorem countedZ_present : countedZ.present = fun sym => sym == 0 := by
  funext sym
  rw [State.present, countedZ_ftAt]
  by_cases h0 : sym = 0
  · rw [h0]; rfl
  · rw [if_neg h0, beq_eq_false_iff_ne.2 h0]; rfl

theorem builtAb_ftAt (sym : Sym) : builtAb.ftAt sym = countedAb.ftAt sym := rfl
theorem builtZ_ftAt (sym : Sym) : builtZ.ftAt sym = countedZ.ftAt sym := rfl
theorem builtAb_present : builtAb.present = fun sym => sym == 1 || sym == 0 := countedAb_present
theorem builtZ_present : builtZ.present = fun sym => sym == 0 := countedZ_present

theorem presentAb {sym : Sym} (h : builtAb.present sym = true) : sym = 1 ∨ sym = 0 := by
  simpa [builtAb_present] using h
theorem presentZ {sym : Sym} (h : builtZ.present sym = true) : sym = 0 := by simpa [builtZ_present] using h

theorem countedAb_freq : countedAb.FreqInv where
  nsym_eq := by rw [State.presentSyms, countedAb_present]; decide +kernel
  total_eq := by simp only [countedAb_ftAt]; decide +kernel
  rank_lt sym h := by rcases presentAb h with rfl | rfl <;> rw [countedAb_ftAt] <;> decide
  rank_hit r h := by
    have hr : r = 0 ∨ r = 1 := by have : r < 2 := h; omega
    rcases hr with rfl | rfl
    · exact ⟨0, by rw [countedAb_present]; rfl, by rw [countedAb_ftAt]; rfl⟩
    · exact ⟨1, by rw [countedAb_present]; rfl, by rw [countedAb_ftAt]; rfl⟩
  empty_iff := by decide

theorem countedZ_freq : countedZ.FreqInv where
  nsym_eq := by rw [State.presentSyms, countedZ_present]; decide +kernel
  total_eq := by simp only [countedZ_ftAt]; decide +kernel
  rank_lt sym h := by rw [presentZ h, countedZ_ftAt]; decide
  rank_hit r h := ⟨0, by rw [countedZ_present]; rfl, by
    have : r = 0 := by have : r < 1 := h; omega
    rw [countedZ_ftAt, this]; rfl⟩
  empty_iff := by decide

theorem builtAb_freq : builtAb.FreqInv :=
  ⟨countedAb_freq.nsym_eq, countedAb_freq.total_eq, countedAb_freq.rank_lt, countedAb_freq.rank_hit, by decide⟩
theorem builtZ_freq : builtZ.FreqInv :=
  ⟨countedZ_freq.nsym_eq, countedZ_freq.total_eq, countedZ_freq.rank_lt, countedZ_freq.rank_hit, by decide⟩

theorem builtAb_node0 : nodeAt builtAb.node 0 = ⟨.leaf, 0, 1, 0, 0⟩ := by simp [builtAb, nodeAt_setNode_same, nodeAt_setNode_ne]
theorem builtAb_node1 : nodeAt builtAb.node 1 = ⟨.leaf, 1, 1, 0, 0⟩ := by simp [builtAb, nodeAt_setNode_same, nodeAt_setNode_ne]
theorem builtAb_node2 : nodeAt builtAb.node 2 = ⟨.internal, 0, 2, 0, 1⟩ := by simp [builtAb, nodeAt_setNode_same]
theorem builtZ_node0 : nodeAt builtZ.node 0 = ⟨.leaf, 0, 1, 0, 0⟩ := by simp [builtZ, nodeAt_setNode_same, nodeAt_setNode_ne]
theorem builtZ_node1 : nodeAt builtZ.node 1 = voidNode := by simp [builtZ, nodeAt_setNode_same, nodeAt_setNode_ne]
theorem builtZ_node2 : nodeAt builtZ.node 2 = ⟨.internal, 0, 1, 0, 1⟩ := by simp [builtZ, nodeAt_setNode_same]

theorem belowThree {P : Nat → Prop} (h0 : P 0) (h1 : P 1) (h2 : P 2) : ∀ id < 3, P id := by
  intro id h
  obtain rfl | rfl | rfl : id = 0 ∨ id = 1 ∨ id = 2 := by omega
  · exact h0
  · exact h1
  · exact h2

theorem parentsAb : builtAb.parentsOf 0 = [2] ∧ builtAb.parentsOf 1 = [2] := by
  have hr : List.range builtAb.nnodes.toNat = [0, 1, 2] := rfl
  have hk : (NodeKind.leaf == NodeKind.internal) = false := rfl
  simp [State.parentsOf, hr, builtAb_node0, builtAb_node1, builtAb_node2, List.filter, hk]

theorem parentsZ : builtZ.parentsOf 0 = [2] ∧ builtZ.parentsOf 1 = [2] := by
  have hr : List.range builtZ.nnodes.toNat = [0, 1, 2] := rfl
  have hk : (NodeKind.leaf == NodeKind.internal) = false := rfl
  have hv : (NodeKind.void == NodeKind.internal) = false := rfl
  simp [State.parentsOf, hr, builtZ_node0, builtZ_node1, builtZ_node2, List.filter, voidNode, hk, hv]

theorem builtAb_shape : builtAb.TreeShape where
  one h := by exact absurd h (by decide)
  many _ := ⟨rfl, rfl⟩
  internal _ := belowThree (fun h => absurd h (by decide)) (fun h => absurd h (by decide)) (fun _ => by rw [builtAb_node2])
  leaf sym h := by
    rcases presentAb h with rfl | rfl <;> rw [builtAb_ftAt, countedAb_ftAt]
    · exact builtAb_node1
    · exact builtAb_node0
  children := belowThree (by rw [builtAb_node0]; decide) (by rw [builtAb_node1]; decide) (fun _ => by
    rw [builtAb_node2]
    exact ⟨by decide, by decide, by decide, rfl, by
      rw [show (⟨.internal, 0, 2, 0, 1⟩ : Node).left.toNat = 0 from rfl,
        show (⟨.internal, 0, 2, 0, 1⟩ : Node).right.toNat = 1 from rfl, builtAb_node0, builtAb_node1]
      rfl⟩)
  oneParent := belowThree (fun _ => by rw [parentsAb.1]; rfl) (fun _ => by rw [parentsAb.2]; rfl) (fun h => absurd rfl h)
  rootFreq := by
    have hr : builtAb.root.toNat = 2 := rfl
    rw [hr, builtAb_node2]
    rfl

theorem builtZ_shape : builtZ.TreeShape where
  one _ := ⟨rfl, rfl, builtZ_node1, by rw [builtZ_node2], by rw [builtZ_node2], by rw [builtZ_node2]⟩
  many h := by exact absurd h (by decide)
  internal h := by exact absurd h (by decide)
  leaf sym h := by
    rw [presentZ h, builtZ_ftAt, countedZ_ftAt]
    exact builtZ_node0
  children := belowThree (by rw [builtZ_node0]; decide) (by rw [builtZ_node1]; decide) (fun _ => by
    rw [builtZ_node2]
    exact ⟨by decide, by decide, by decide, rfl, by
      rw [show (⟨.internal, 0, 1, 0, 1⟩ : Node).left.toNat = 0 from rfl,
        show (⟨.internal, 0, 1, 0, 1⟩ : Node).right.toNat = 1 from rfl, builtZ_node0, builtZ_node1]
      rfl⟩)
  oneParent := belowThree (fun _ => by rw [parentsZ.1]; rfl) (fun _ => by rw [parentsZ.2]; rfl) (fun h => absurd rfl h)
  rootFreq := by
    have hr : builtZ.root.toNat = 2 := rfl
    rw [hr, builtZ_node2]
    rfl

theorem followAb (b : Bool) : follow builtAb.node 2 [b] = some (if b then 1 else 0) := by
  cases b <;> simp [follow, builtAb_node2]

theorem builtAb_paths : builtAb.CodePaths where
  path sym h := by
    rcases presentAb h with rfl | rfl <;> rw [builtAb_ftAt, countedAb_ftAt, builtAb_ctAt] <;> exact followAb _
  length sym h := by rcases presentAb h with rfl | rfl <;> rw [builtAb_ctAt] <;> decide
  absent sym h := by
    rw [builtAb_present] at h
    simp only [Bool.or_eq_false_iff, beq_eq_false_iff_ne, ne_eq] at h
    rw [builtAb_ctAt, if_neg h.1, if_neg h.2]

theorem builtZ_paths : builtZ.CodePaths where
  path sym h := by
    rw [presentZ h, builtZ_ftAt, countedZ_ftAt, builtZ_ctAt]
    show follow builtZ.node 2 [false] = some 0
    simp [follow, builtZ_node2]
  length sym h := by rw [presentZ h, builtZ_ctAt]; decide
  absent sym h := by
    rw [builtZ_present] at h
    simp only [beq_eq_false_iff_ne, ne_eq] at h
    rw [builtZ_ctAt, if_neg h]

theorem builtAb_tables : builtAb.TablesInv := ⟨by decide, builtAb_freq, fun _ => builtAb_shape, fun _ => builtAb_paths⟩
theorem builtZ_tables : builtZ.TablesInv := ⟨by decide, builtZ_freq, fun _ => builtZ_shape, fun _ => builtZ_paths⟩

/-- The corpus 00 00 01 02 counted and its tree built: symbol 0 twice (rank 0), 1 and 2 once (ranks 1 and 2); merge 1 joins
leaves 1 and 2 into node 3, merge 2 leaf 0 and node 3 into the root 4 (R130); codes "0", "10" and "11". -/
def builtAbc : State :=
  { State.reset with
    phase := .built
    nsym := 3
    total := 4
    ft := (((Vector.replicate 256 FreqEntry.absent).set 0 ⟨2, 0⟩).set 1 ⟨1, 1⟩).set 2 ⟨1, 2⟩
    node := setNode (setNode (setNode (setNode (setNode (Vector.replicate 511 Node.unused) 0 ⟨.leaf, 0, 2, 0, 0⟩) 1
      ⟨.leaf, 1, 1, 0, 0⟩) 2 ⟨.leaf, 2, 1, 0, 0⟩) 3 ⟨.internal, 0, 2, 1, 2⟩) 4 ⟨.internal, 0, 4, 0, 3⟩
    nnodes := 5
    root := 4
    ct := (((Vector.replicate 256 CodeEntry.absent).set 0 ⟨[false]⟩).set 1 ⟨[true, false]⟩).set 2 ⟨[true, true]⟩ }

theorem builtAbc_ftAt (sym : Sym) : builtAbc.ftAt sym =
    if sym = 2 then ⟨1, 2⟩ else if sym = 1 then ⟨1, 1⟩ else if sym = 0 then ⟨2, 0⟩ else FreqEntry.absent := by
  have h (k : Nat) (hk : k < 256) : (k = sym.toNat) = (sym = BitVec.ofNat 8 k) :=
    propext ⟨fun h => BitVec.eq_of_toNat_eq (by simp [← h]; omega), fun h => by simp [h]; omega⟩
  simp [State.ftAt, builtAbc, Vector.getElem_set, h]

theorem builtAbc_ctAt (sym : Sym) : builtAbc.ctAt sym =
    if sym = 2 then ⟨[true, true]⟩ else if sym = 1 then ⟨[true, false]⟩ else if sym = 0 then ⟨[false]⟩
    else CodeEntry.absent := by
  have h (k : Nat) (hk : k < 256) : (k = sym.toNat) = (sym = BitVec.ofNat 8 k) :=
    propext ⟨fun h => BitVec.eq_of_toNat_eq (by simp [← h]; omega), fun h => by simp [h]; omega⟩
  simp [State.ctAt, builtAbc, Vector.getElem_set, h]

theorem builtAbc_present : builtAbc.present = fun sym => sym == 2 || sym == 1 || sym == 0 := by
  funext sym
  rw [State.present, builtAbc_ftAt]
  by_cases h2 : sym = 2
  · rw [h2]; rfl
  · by_cases h1 : sym = 1
    · rw [h1]; rfl
    · by_cases h0 : sym = 0
      · rw [h0]; rfl
      · rw [if_neg h2, if_neg h1, if_neg h0, beq_eq_false_iff_ne.2 h2, beq_eq_false_iff_ne.2 h1, beq_eq_false_iff_ne.2 h0]
        rfl

theorem presentAbc {sym : Sym} (h : builtAbc.present sym = true) : sym = 2 ∨ sym = 1 ∨ sym = 0 := by
  simpa [builtAbc_present, or_assoc] using h

theorem builtAbc_freq : builtAbc.FreqInv where
  nsym_eq := by rw [State.presentSyms, builtAbc_present]; decide +kernel
  total_eq := by simp only [builtAbc_ftAt]; decide +kernel
  rank_lt sym h := by rcases presentAbc h with rfl | rfl | rfl <;> rw [builtAbc_ftAt] <;> decide
  rank_hit r h := by
    have hr : r = 0 ∨ r = 1 ∨ r = 2 := by have : r < 3 := h; omega
    rcases hr with rfl | rfl | rfl
    · exact ⟨0, by rw [builtAbc_present]; rfl, by rw [builtAbc_ftAt]; rfl⟩
    · exact ⟨1, by rw [builtAbc_present]; rfl, by rw [builtAbc_ftAt]; rfl⟩
    · exact ⟨2, by rw [builtAbc_present]; rfl, by rw [builtAbc_ftAt]; rfl⟩
  empty_iff := by decide

theorem builtAbc_node0 : nodeAt builtAbc.node 0 = ⟨.leaf, 0, 2, 0, 0⟩ := by
  simp [builtAbc, nodeAt_setNode_same, nodeAt_setNode_ne]
theorem builtAbc_node1 : nodeAt builtAbc.node 1 = ⟨.leaf, 1, 1, 0, 0⟩ := by
  simp [builtAbc, nodeAt_setNode_same, nodeAt_setNode_ne]
theorem builtAbc_node2 : nodeAt builtAbc.node 2 = ⟨.leaf, 2, 1, 0, 0⟩ := by
  simp [builtAbc, nodeAt_setNode_same, nodeAt_setNode_ne]
theorem builtAbc_node3 : nodeAt builtAbc.node 3 = ⟨.internal, 0, 2, 1, 2⟩ := by
  simp [builtAbc, nodeAt_setNode_same, nodeAt_setNode_ne]
theorem builtAbc_node4 : nodeAt builtAbc.node 4 = ⟨.internal, 0, 4, 0, 3⟩ := by simp [builtAbc, nodeAt_setNode_same]

theorem belowFive {P : Nat → Prop} (h0 : P 0) (h1 : P 1) (h2 : P 2) (h3 : P 3) (h4 : P 4) : ∀ id < 5, P id := by
  intro id h
  obtain rfl | rfl | rfl | rfl | rfl : id = 0 ∨ id = 1 ∨ id = 2 ∨ id = 3 ∨ id = 4 := by omega
  · exact h0
  · exact h1
  · exact h2
  · exact h3
  · exact h4

theorem parentsAbc : builtAbc.parentsOf 0 = [4] ∧ builtAbc.parentsOf 1 = [3] ∧ builtAbc.parentsOf 2 = [3] ∧
    builtAbc.parentsOf 3 = [4] := by
  have hr : List.range builtAbc.nnodes.toNat = [0, 1, 2, 3, 4] := rfl
  have hk : (NodeKind.leaf == NodeKind.internal) = false := rfl
  simp [State.parentsOf, hr, builtAbc_node0, builtAbc_node1, builtAbc_node2, builtAbc_node3, builtAbc_node4, List.filter, hk]

theorem builtAbc_shape : builtAbc.TreeShape where
  one h := by exact absurd h (by decide)
  many _ := ⟨rfl, rfl⟩
  internal _ := belowFive (fun h => absurd h (by decide)) (fun h => absurd h (by decide)) (fun h => absurd h (by decide))
    (fun _ => by rw [builtAbc_node3]) (fun _ => by rw [builtAbc_node4])
  leaf sym h := by
    rcases presentAbc h with rfl | rfl | rfl <;> rw [builtAbc_ftAt]
    · exact builtAbc_node2
    · exact builtAbc_node1
    · exact builtAbc_node0
  children := belowFive (by rw [builtAbc_node0]; decide) (by rw [builtAbc_node1]; decide) (by rw [builtAbc_node2]; decide)
    (fun _ => by
      rw [builtAbc_node3]
      exact ⟨by decide, by decide, by decide, rfl, by
        rw [show (⟨.internal, 0, 2, 1, 2⟩ : Node).left.toNat = 1 from rfl,
          show (⟨.internal, 0, 2, 1, 2⟩ : Node).right.toNat = 2 from rfl, builtAbc_node1, builtAbc_node2]
        rfl⟩)
    (fun _ => by
      rw [builtAbc_node4]
      exact ⟨by decide, by decide, by decide, rfl, by
        rw [show (⟨.internal, 0, 4, 0, 3⟩ : Node).left.toNat = 0 from rfl,
          show (⟨.internal, 0, 4, 0, 3⟩ : Node).right.toNat = 3 from rfl, builtAbc_node0, builtAbc_node3]
        rfl⟩)
  oneParent := belowFive (fun _ => by rw [parentsAbc.1]; rfl) (fun _ => by rw [parentsAbc.2.1]; rfl)
    (fun _ => by rw [parentsAbc.2.2.1]; rfl) (fun _ => by rw [parentsAbc.2.2.2]; rfl) (fun h => absurd rfl h)
  rootFreq := by
    have hr : builtAbc.root.toNat = 4 := rfl
    rw [hr, builtAbc_node4]
    rfl

theorem builtAbc_paths : builtAbc.CodePaths where
  path sym h := by
    rcases presentAbc h with rfl | rfl | rfl <;> rw [builtAbc_ftAt, builtAbc_ctAt]
    · show follow builtAbc.node 4 [true, true] = some 2
      simp [follow, builtAbc_node4, builtAbc_node3]
    · show follow builtAbc.node 4 [true, false] = some 1
      simp [follow, builtAbc_node4, builtAbc_node3]
    · show follow builtAbc.node 4 [false] = some 0
      simp [follow, builtAbc_node4]
  length sym h := by rcases presentAbc h with rfl | rfl | rfl <;> rw [builtAbc_ctAt] <;> decide
  absent sym h := by
    rw [builtAbc_present] at h
    simp only [Bool.or_eq_false_iff, beq_eq_false_iff_ne, ne_eq] at h
    rw [builtAbc_ctAt, if_neg h.1.1, if_neg h.1.2, if_neg h.2]

theorem builtAbc_tables : builtAbc.TablesInv := ⟨by decide, builtAbc_freq, fun _ => builtAbc_shape, fun _ => builtAbc_paths⟩

/-! ## Witnesses: states of one command

`onBytes` gives a state its input, as the host's writes to IBUF, LEN and BITLEN would; the tables stay. -/

/-- `s` with these bytes in IBUF, LEN their number and BITLEN given. -/
def onBytes (s : State) (bytes : List Byte) (bits : Nat) : State := loaded bytes bits s

/-- `s` with an OBUF of `n` bytes. -/
def smallObuf (s : State) (n : Nat) : State := { s with params := ⟨65536, n, 0⟩ }

/-- A state with the tables and a legal configuration of `s` keeps its table invariants. -/
theorem tables_onBytes {s : State} (h : s.TablesInv) (bytes : List Byte) (bits : Nat) : (onBytes s bytes bits).TablesInv :=
  ⟨h.params, ⟨h.freq.nsym_eq, h.freq.total_eq, h.freq.rank_lt, h.freq.rank_hit, h.freq.empty_iff⟩,
    fun hb => ⟨(h.tree hb).one, (h.tree hb).many, (h.tree hb).internal, (h.tree hb).leaf, (h.tree hb).children,
      (h.tree hb).oneParent, (h.tree hb).rootFreq⟩,
    fun hb => ⟨(h.code hb).path, (h.code hb).length, (h.code hb).absent⟩⟩

theorem tables_smallObuf {s : State} (h : s.TablesInv) (n : Nat) (hp : (smallObuf s n).params.legal = true) :
    (smallObuf s n).TablesInv :=
  ⟨hp, ⟨h.freq.nsym_eq, h.freq.total_eq, h.freq.rank_lt, h.freq.rank_hit, h.freq.empty_iff⟩,
    fun hb => ⟨(h.tree hb).one, (h.tree hb).many, (h.tree hb).internal, (h.tree hb).leaf, (h.tree hb).children,
      (h.tree hb).oneParent, (h.tree hb).rootFreq⟩,
    fun hb => ⟨(h.code hb).path, (h.code hb).length, (h.code hb).absent⟩⟩

theorem freq_onBytes {s : State} (h : s.FreqInv) (bytes : List Byte) (bits : Nat) : (onBytes s bytes bits).FreqInv :=
  ⟨h.nsym_eq, h.total_eq, h.rank_lt, h.rank_hit, h.empty_iff⟩

/-- The state `exec` answers. -/
def result (i : Instr) (s : State) : State :=
  match exec i s with
  | .next t => t
  | .fault _ => s
  | .refused _ => s

theorem exec_result (i : Instr) (s : State) : exec i s = .next (result i s) := by
  have h : ∃ t, exec i s = .next t := by
    rw [exec_eq_runCommand]
    rcases runCommand_cases i (bodyOf i) s with ⟨_, _, hr⟩ | ⟨_, _, _, hr⟩ | ⟨_, _, _, hr⟩ <;> exact ⟨_, hr⟩
  obtain ⟨t, ht⟩ := h
  rw [result, ht]

/-- The state a step that stops nowhere answers. -/
def stepResult (s : State) : State :=
  match step s with
  | .next t => t
  | .fault _ => s
  | .refused _ => s

theorem step_result {s : State} (h : ∃ t, step s = .next t) : step s = .next (stepResult s) := by
  obtain ⟨t, ht⟩ := h
  rw [stepResult, ht]

/-- A running command's step answers a next state. -/
theorem step_result_engine {s : State} (h : s.events = []) : step s = .next (stepResult s) := by
  refine step_result ?_
  rw [step, h]
  exact engineTurn_next _

/-- Bits below a small bound, one by one. -/
theorem reads_nil (s : State) (fmt : Fmt) : s.readsBits fmt [] := fun k h => absurd h (Nat.not_lt_zero k)
theorem reads_two {s : State} {fmt : Fmt} {x y : Bool} (h0 : s.inputBit fmt 0 = .ok x) (h1 : s.inputBit fmt 1 = .ok y) :
    s.readsBits fmt [x, y] := by
  intro k h
  obtain rfl | rfl : k = 0 ∨ k = 1 := by have : k < 2 := h; omega
  · exact h0
  · exact h1
theorem holds_two {s : State} {x y : Byte} (h0 : s.ibufByte 0 = x) (h1 : s.ibufByte 1 = y) : s.ibufHolds [x, y] := by
  intro k h
  obtain rfl | rfl : k = 0 ∨ k = 1 := by have : k < 2 := h; omega
  · exact h0
  · exact h1
theorem holds_three {s : State} {x y z : Byte} (h0 : s.ibufByte 0 = x) (h1 : s.ibufByte 1 = y) (h2 : s.ibufByte 2 = z) :
    s.ibufHolds [x, y, z] := by
  intro k h
  obtain rfl | rfl | rfl : k = 0 ∨ k = 1 ∨ k = 2 := by have : k < 3 := h; omega
  · exact h0
  · exact h1
  · exact h2

/-! ## Witnesses: for each statement with hypotheses, a state and operands that meet them all together -/

theorem witness_StepRunsTheAcceptedCommand :
    ((State.reset.accept 0x00010004).events = [] ∧ (State.reset.accept 0x00010004).busy = true ∧
      decodeWord (State.reset.accept 0x00010004).lcmd = .ok (.encode .ascii)) ∧
    ((State.reset.offerWord 0x00000002).events.head? = some .complete ∧ (State.reset.offerWord 0x00000002).busy = true ∧
      decodeWord (State.reset.offerWord 0x00000002).lcmd = .ok .count) ∧
    (State.reset.events = [] ∧ State.reset.busy = false) := ⟨⟨rfl, rfl, rfl⟩, ⟨rfl, rfl, rfl⟩, rfl, rfl⟩

theorem witness_IllegalWordCompletesWithIllegalCommand :
    ((State.reset.accept 0x000000FF).events = [] ∧ (State.reset.accept 0x000000FF).busy = true ∧
      decodeWord (State.reset.accept 0x000000FF).lcmd = .error .reservedOpcode) ∧
    ((builtAb.offerWord 0x00000104).events.head? = some .complete ∧ (builtAb.offerWord 0x00000104).busy = true ∧
      decodeWord (builtAb.offerWord 0x00000104).lcmd = .error .symNotUsed) := ⟨⟨rfl, rfl, rfl⟩, rfl, rfl, rfl⟩

theorem witness_AcceptedCommandRunsToCompletion :
    State.reset.busy = false ∧
    { State.reset with events := [.access ⟨true, 2, 0x00008, 0x00000003⟩] }.events = [.access ⟨true, 2, 0x00008, 0x00000003⟩] :=
  ⟨rfl, rfl⟩

/-- A safe step, each of the two hazards, and the boundary: a write one byte past IBUF is none. -/
theorem witness_StepStopsExactlyOnHazards :
    State.reset.safe = true ∧
    { State.reset with events := [.resetDuring ⟨false, 2, 0x0000C, 0⟩] }.safe = false ∧
    { State.reset.accept 2 with events := [.access ⟨true, 2, 0x00014, 1⟩] }.safe = false ∧
    { State.reset.accept 2 with events := [.accessAtCompletion ⟨true, 0, 0x1FFFF, 1⟩] }.safe = false ∧
    { (sized 3 3 State.reset).accept 2 with events := [.access ⟨true, 0, 0x10002, 1⟩] }.safe = false ∧
    { (sized 3 3 State.reset).accept 2 with events := [.access ⟨true, 0, 0x10003, 1⟩] }.safe = true := by
  refine ⟨rfl, rfl, ?_, ?_, ?_, ?_⟩ <;> decide +kernel

theorem witness_SequenceErrorWithoutTree : State.reset.phase ≠ .built ∧ countedAb.phase ≠ .built := by decide
theorem witness_BuildErrorOnceBuilt : builtAb.phase = .built := rfl
theorem witness_EmptyInputAtBuild : State.reset.phase = .empty := rfl

/-- One failed command for each clause: no codec; a scan error of each kind; the two errors that leave OBUF. -/
theorem witness_FailedCommandDiscardsItsWrites :
    (exec .build State.reset = .next (result .build State.reset) ∧ (result .build State.reset).errCode = .emptyInput) ∧
    (exec (.encode .packed) (onBytes builtAb [0x05] 0) = .next (result (.encode .packed) (onBytes builtAb [0x05] 0)) ∧
      (result (.encode .packed) (onBytes builtAb [0x05] 0)).errCode = .unknownSymbol) ∧
    (exec (.decode .ascii) (onBytes builtAb [0x78] 0) = .next (result (.decode .ascii) (onBytes builtAb [0x78] 0)) ∧
      (result (.decode .ascii) (onBytes builtAb [0x78] 0)).errCode = .invalidBit) ∧
    (exec (.decode .packed) (onBytes builtAbc [0x80] 1) = .next (result (.decode .packed) (onBytes builtAbc [0x80] 1)) ∧
      (result (.decode .packed) (onBytes builtAbc [0x80] 1)).errCode = .truncatedStream) ∧
    (exec (.encode .ascii) (onBytes (smallObuf builtAb 1) [0, 0] 0) =
        .next (result (.encode .ascii) (onBytes (smallObuf builtAb 1) [0, 0] 0)) ∧
      (result (.encode .ascii) (onBytes (smallObuf builtAb 1) [0, 0] 0)).errCode = .capacityError ∧
      (result (.encode .ascii) (onBytes (smallObuf builtAb 1) [0, 0] 0)).errpos = 1) ∧
    (exec (.encode .packed) State.reset = .next (result (.encode .packed) State.reset) ∧
      (result (.encode .packed) State.reset).errCode = .sequenceError) ∧
    (exec (.encode .packed) { builtAb with len := 65537 } =
        .next (result (.encode .packed) { builtAb with len := 65537 }) ∧
      (result (.encode .packed) { builtAb with len := 65537 }).errCode = .capacityError ∧
      (result (.encode .packed) { builtAb with len := 65537 }).errpos = 0xFFFFFFFF) := by
  refine ⟨⟨exec_result _ _, ?_⟩, ⟨exec_result _ _, ?_⟩, ⟨exec_result _ _, ?_⟩, ⟨exec_result _ _, ?_⟩,
    ⟨exec_result _ _, ?_, ?_⟩, ⟨exec_result _ _, ?_⟩, exec_result _ _, ?_, ?_⟩ <;> decide +kernel

theorem witness_CommandFrame :
    builtAb.params.legal = true ∧
    exec (.query 0x01) builtAb = .next (result (.query 0x01) builtAb) ∧
    (exec (.encode .packed) (onBytes builtAb [1, 0] 0) = .next (result (.encode .packed) (onBytes builtAb [1, 0] 0)) ∧
      (onBytes builtAb [1, 0] 0).errCode = .none ∧ (result (.encode .packed) (onBytes builtAb [1, 0] 0)).errCode = .none) :=
  ⟨by decide, exec_result _ _, exec_result _ _, rfl, by decide +kernel⟩

/-- A present symbol, an absent one twice, and LEN at the size of IBUF. -/
theorem witness_CountAddsOccurrences :
    let s := onBytes { countedAb with params := ⟨3, 3, 0⟩ } [1, 5, 5] 0
    s.FreqInv ∧ s.phase ≠ .built ∧ s.ibufHolds [1, 5, 5] ∧ [1, 5, 5].length = s.len.toNat ∧
      s.len.toNat ≤ s.params.ibufSize ∧ s.total.toNat + s.len.toNat ≤ 2 ^ 32 - 1 :=
  ⟨⟨countedAb_freq.nsym_eq, countedAb_freq.total_eq, countedAb_freq.rank_lt, countedAb_freq.rank_hit,
    countedAb_freq.empty_iff⟩, by decide, holds_three rfl rfl rfl, rfl, by decide, by decide⟩

theorem witness_CountAssignsRanksByFirstOccurrence :
    let s := onBytes countedAb [5, 1, 9] 0
    s.FreqInv ∧ s.phase ≠ .built ∧ s.ibufHolds [5, 1, 9] ∧ [5, 1, 9].length = s.len.toNat ∧
      s.len.toNat ≤ s.params.ibufSize ∧ s.total.toNat + s.len.toNat ≤ 2 ^ 32 - 1 ∧
      s.present 1 = true ∧ s.present 9 = false :=
  ⟨freq_onBytes countedAb_freq _ _, by decide, holds_three rfl rfl rfl, rfl, by decide, by decide, by decide +kernel,
    by decide +kernel⟩

theorem witness_CountInChunksEqualsOneCount :
    let s := onBytes countedAb [1, 5, 1] 0
    let t := result .count { s with len := BitVec.ofNat 32 1 }
    let u := { t with ibuf := image [5, 1], len := BitVec.ofNat 32 2 }
    s.FreqInv ∧ s.params.legal = true ∧ s.phase ≠ .built ∧ 1 + 2 ≤ s.params.ibufSize ∧ s.total.toNat + (1 + 2) ≤ 2 ^ 32 - 1 ∧
      exec .count { s with len := BitVec.ofNat 32 1 } = .next t ∧ u.params = t.params ∧ u.ft = t.ft ∧ u.nsym = t.nsym ∧
      u.total = t.total ∧ u.phase = t.phase ∧ u.len = BitVec.ofNat 32 2 ∧
      ∀ i < 2, u.ibufByte i = s.ibufByte (1 + i) := by
  refine ⟨freq_onBytes countedAb_freq _ _, by decide, by decide, by decide, by decide, exec_result _ _, rfl, rfl, rfl, rfl,
    rfl, rfl, fun i h => ?_⟩
  obtain rfl | rfl : i = 0 ∨ i = 1 := by omega
  · rfl
  · rfl

/-- Each cause of the error, one above its bound. -/
theorem witness_CountCapacityError :
    (State.reset.phase ≠ .built ∧ { State.reset with len := 65537 }.params.ibufSize <
      { State.reset with len := 65537 }.len.toNat) ∧
    ({ countedAb with total := 0xFFFFFFFF, len := 1 }.phase ≠ .built ∧
      2 ^ 32 - 1 < { countedAb with total := 0xFFFFFFFF, len := 1 }.total.toNat +
        { countedAb with total := 0xFFFFFFFF, len := 1 }.len.toNat) := by decide

theorem witness_BuildYieldsTree :
    (countedAb.FreqInv ∧ countedAb.phase = .collect) ∧ (countedZ.FreqInv ∧ countedZ.phase = .collect) :=
  ⟨⟨countedAb_freq, rfl⟩, countedZ_freq, rfl⟩

theorem witness_BuildSelectsLeastKeys :
    countedAb.FreqInv ∧ countedAb.phase = .collect ∧ 2 ≤ countedAb.nsym.toNat ∧
      countedAb.nsym.toNat ≤ 2 ∧ 2 < (result .build countedAb).nnodes.toNat :=
  ⟨countedAb_freq, rfl, by decide, by decide, by decide +kernel⟩

theorem witness_BuildAgreesWithStableSort :
    countedAb.FreqInv ∧ countedAb.phase = .collect ∧ 2 ≤ countedAb.nsym.toNat := ⟨countedAb_freq, rfl, by decide⟩

theorem witness_BuildDependsOnFtAlone :
    let u := onBytes countedAb [7] 3
    countedAb.FreqInv ∧ u.FreqInv ∧ countedAb.phase = .collect ∧ u.phase = .collect ∧ countedAb.ft = u.ft :=
  ⟨countedAb_freq, freq_onBytes countedAb_freq _ _, rfl, rfl, rfl⟩

theorem witness_BuildWrapsOneSymbol :
    countedZ.FreqInv ∧ countedZ.phase = .collect ∧ countedZ.nsym = 1 ∧ countedZ.present 0 = true :=
  ⟨countedZ_freq, rfl, rfl, by decide +kernel⟩

theorem witness_BuildCodesArePaths : countedAb.FreqInv ∧ countedAb.phase = .collect := ⟨countedAb_freq, rfl⟩

theorem witness_BuildCodesArePrefixFree :
    countedAb.FreqInv ∧ countedAb.phase = .collect ∧ (result .build countedAb).present 0 = true ∧
      (result .build countedAb).present 1 = true ∧ (0 : Sym) ≠ 1 :=
  ⟨countedAb_freq, rfl, by decide +kernel, by decide +kernel, by decide⟩

/-- The codes of 01 00 are 2 bits: IBUF and OBUF of ENCODE. -/
theorem witness_EncodePackedResult :
    let s := onBytes builtAb [1, 0] 0
    s.params.legal = true ∧ s.phase = .built ∧ s.ibufHolds [1, 0] ∧ [1, 0].length = s.len.toNat ∧
      s.len.toNat ≤ s.params.ibufSize ∧ (∀ b ∈ [1, 0], s.present b = true) ∧
      (s.codeStream [1, 0]).length ≤ 8 * s.params.obufSize :=
  ⟨by decide, rfl, holds_two rfl rfl, rfl, by decide, by decide +kernel, by decide +kernel⟩

/-- At the bound: two bits and an OBUF of two bytes. -/
theorem witness_EncodeAsciiResult :
    let s := onBytes (smallObuf builtAb 2) [1, 0] 0
    s.params.legal = true ∧ s.phase = .built ∧ s.ibufHolds [1, 0] ∧ [1, 0].length = s.len.toNat ∧
      s.len.toNat ≤ s.params.ibufSize ∧ (∀ b ∈ [1, 0], s.present b = true) ∧
      (s.codeStream [1, 0]).length ≤ s.params.obufSize :=
  ⟨by decide, rfl, holds_two rfl rfl, rfl, by decide, by decide +kernel, by decide +kernel⟩

/-- An unknown byte, and a byte whose code does not fit, each after one that does. -/
theorem witness_EncodeReportsFirstError :
    (let s := onBytes builtAb [1, 5, 0] 0
    s.params.legal = true ∧ s.phase = .built ∧ s.ibufHolds ([1] ++ 5 :: [0]) ∧ ([1] ++ 5 :: [0]).length = s.len.toNat ∧
      s.len.toNat ≤ s.params.ibufSize ∧ (∀ x ∈ [1], s.present x = true) ∧
      (s.codeStream [1]).length ≤ s.outputBitCapacity .packed ∧ s.present 5 = false) ∧
    (let s := onBytes (smallObuf builtAb 1) [1, 0] 0
    s.params.legal = true ∧ s.phase = .built ∧ s.ibufHolds ([1] ++ 0 :: []) ∧ ([1] ++ 0 :: []).length = s.len.toNat ∧
      s.len.toNat ≤ s.params.ibufSize ∧ (∀ x ∈ [1], s.present x = true) ∧
      (s.codeStream [1]).length ≤ s.outputBitCapacity .ascii ∧ s.present 0 = true ∧
      s.outputBitCapacity .ascii < (s.codeStream ([1] ++ [0])).length) :=
  ⟨⟨by decide, rfl, holds_three rfl rfl rfl, rfl, by decide, by decide +kernel, by decide +kernel, by decide +kernel⟩,
    by decide, rfl, holds_two rfl rfl, rfl, by decide, by decide +kernel, by decide +kernel, by decide +kernel,
    by decide +kernel⟩

theorem witness_CodecInputTooLong :
    builtAb.phase = .built ∧ { builtAb with len := 65537 }.params.ibufSize < { builtAb with len := 65537 }.len.toNat ∧
    8 * { builtAb with bitlen := 524289 }.params.ibufSize < { builtAb with bitlen := 524289 }.bitlen.toNat := by decide

/-- 01 00 in either format, at the bound of an OBUF of two bytes. -/
theorem witness_DecodeInvertsCodes :
    (let s := onBytes (smallObuf builtAb 2) [0x80] 2
    s.TablesInv ∧ s.phase = .built ∧ (∀ b ∈ [1, 0], s.present b = true) ∧ s.readsBits .packed (s.codeStream [1, 0]) ∧
      s.inputBits .packed = (s.codeStream [1, 0]).length ∧ s.inputBits .packed ≤ s.inputBitCapacity .packed ∧
      [1, 0].length ≤ s.params.obufSize) ∧
    (let s := onBytes (smallObuf builtAb 2) [0x31, 0x30] 0
    s.TablesInv ∧ s.phase = .built ∧ (∀ b ∈ [1, 0], s.present b = true) ∧ s.readsBits .ascii (s.codeStream [1, 0]) ∧
      s.inputBits .ascii = (s.codeStream [1, 0]).length ∧ s.inputBits .ascii ≤ s.inputBitCapacity .ascii ∧
      [1, 0].length ≤ s.params.obufSize) :=
  ⟨⟨tables_onBytes (tables_smallObuf builtAb_tables 2 (by decide)) _ _, rfl, by decide +kernel, reads_two rfl rfl,
      by decide +kernel, by decide, by decide⟩,
    tables_onBytes (tables_smallObuf builtAb_tables 2 (by decide)) _ _, rfl, by decide +kernel, reads_two rfl rfl,
    by decide +kernel, by decide, by decide⟩

/-- Both formats, and the copy of OBUF to IBUF. -/
theorem witness_EncodeThenDecodeRoundTrip :
    let s := onBytes builtAb [1, 0] 0
    s.TablesInv ∧ s.phase = .built ∧ s.ibufHolds [1, 0] ∧ [1, 0].length = s.len.toNat ∧
      s.len.toNat ≤ s.params.ibufSize ∧ (∀ b ∈ [1, 0], s.present b = true) ∧
      (∀ fmt, (s.codeStream [1, 0]).length ≤ s.outputBitCapacity fmt ∧
        (s.codeStream [1, 0]).length ≤ s.inputBitCapacity fmt) ∧
      [1, 0].length ≤ s.params.obufSize :=
  ⟨tables_onBytes builtAb_tables _ _, rfl, holds_two rfl rfl, rfl, by decide, by decide +kernel,
    fun fmt => by cases fmt <;> decide +kernel, by decide⟩

/-- The state the round trip decodes in, for ASCII: the two bytes 0x31 0x30 of ENCODE copied to IBUF. -/
theorem witness_round_trip_copy :
    let t := result (.encode .ascii) (onBytes builtAb [1, 0] 0)
    let u := onBytes t [0x31, 0x30] 0
    u.params = t.params ∧ u.ft = t.ft ∧ u.nsym = t.nsym ∧ u.total = t.total ∧ u.phase = t.phase ∧ u.node = t.node ∧
      u.nnodes = t.nnodes ∧ u.root = t.root ∧ u.ct = t.ct ∧ t.outLen = 2 ∧ u.len = t.outLen ∧
      u.ibufByte 0 = t.obufByte 0 ∧ u.ibufByte 1 = t.obufByte 1 :=
  ⟨rfl, rfl, rfl, rfl, rfl, rfl, rfl, rfl, rfl, by decide +kernel, by decide +kernel, by decide +kernel, by decide +kernel⟩

/-- The codes "0", then "1" of an unfinished codeword, in either format. -/
theorem witness_DecodeReportsTruncation :
    (let s := onBytes builtAbc [0x40] 2
    s.TablesInv ∧ s.phase = .built ∧ (∀ b ∈ [0], s.present b = true) ∧ [(0 : Byte)].length ≤ s.params.obufSize ∧
      [true] ≠ [] ∧ follow s.node s.root.toNat [true] = some 3 ∧ (nodeAt s.node 3).kind = .internal ∧
      s.readsBits .packed (s.codeStream [0] ++ [true]) ∧
      s.inputBits .packed = (s.codeStream [0] ++ [true]).length ∧ s.inputBits .packed ≤ s.inputBitCapacity .packed) ∧
    (let s := onBytes builtAbc [0x30, 0x31] 0
    s.TablesInv ∧ s.phase = .built ∧ (∀ b ∈ [0], s.present b = true) ∧ [(0 : Byte)].length ≤ s.params.obufSize ∧
      [true] ≠ [] ∧ follow s.node s.root.toNat [true] = some 3 ∧ (nodeAt s.node 3).kind = .internal ∧
      s.readsBits .ascii (s.codeStream [0] ++ [true]) ∧
      s.inputBits .ascii = (s.codeStream [0] ++ [true]).length ∧ s.inputBits .ascii ≤ s.inputBitCapacity .ascii) :=
  ⟨⟨tables_onBytes builtAbc_tables _ _, rfl, by decide +kernel, by decide, by decide, by decide +kernel, by decide +kernel,
      reads_two rfl rfl, by decide +kernel, by decide⟩,
    tables_onBytes builtAbc_tables _ _, rfl, by decide +kernel, by decide, by decide, by decide +kernel, by decide +kernel,
    reads_two rfl rfl, by decide +kernel, by decide⟩

/-- At a codeword's start, and inside one. -/
theorem witness_DecodeReportsMalformedToken :
    (let s := onBytes builtAb [0x78, 0x30] 0
    s.TablesInv ∧ s.phase = .built ∧ (∀ b ∈ [], s.present b = true) ∧ ([] : List Byte).length ≤ s.params.obufSize ∧
      follow s.node s.root.toNat [] = some 2 ∧ (nodeAt s.node 2).kind = .internal ∧
      s.readsBits .ascii (s.codeStream [] ++ []) ∧ (s.codeStream [] ++ []).length < s.len.toNat ∧
      s.len.toNat ≤ s.params.ibufSize ∧ s.ibufByte (s.codeStream [] ++ []).length ≠ 0x30 ∧
      s.ibufByte (s.codeStream [] ++ []).length ≠ 0x31) ∧
    (let s := onBytes builtAbc [0x30, 0x31, 0x32] 0
    s.TablesInv ∧ s.phase = .built ∧ (∀ b ∈ [0], s.present b = true) ∧ [(0 : Byte)].length ≤ s.params.obufSize ∧
      follow s.node s.root.toNat [true] = some 3 ∧ (nodeAt s.node 3).kind = .internal ∧
      s.readsBits .ascii (s.codeStream [0] ++ [true]) ∧ (s.codeStream [0] ++ [true]).length < s.len.toNat ∧
      s.len.toNat ≤ s.params.ibufSize ∧ s.ibufByte (s.codeStream [0] ++ [true]).length ≠ 0x30 ∧
      s.ibufByte (s.codeStream [0] ++ [true]).length ≠ 0x31) :=
  ⟨⟨tables_onBytes builtAb_tables _ _, rfl, by decide, by decide, rfl, by decide +kernel, reads_nil _ _, by decide,
      by decide, by decide +kernel, by decide +kernel⟩,
    tables_onBytes builtAbc_tables _ _, rfl, by decide +kernel, by decide, by decide +kernel, by decide +kernel,
    reads_two rfl rfl, by decide +kernel, by decide, by decide +kernel, by decide +kernel⟩

/-- The bits 0 1 in the one-symbol tree, in either format. -/
theorem witness_DecodeReportsVoidPath :
    (let s := onBytes builtZ [0x40] 2
    s.TablesInv ∧ s.phase = .built ∧ s.nsym = 1 ∧ 1 ≤ s.params.obufSize ∧
      s.readsBits .packed (List.replicate 1 false ++ [true]) ∧ 1 < s.inputBits .packed ∧
      s.inputBits .packed ≤ s.inputBitCapacity .packed) ∧
    (let s := onBytes builtZ [0x30, 0x31] 0
    s.TablesInv ∧ s.phase = .built ∧ s.nsym = 1 ∧ 1 ≤ s.params.obufSize ∧
      s.readsBits .ascii (List.replicate 1 false ++ [true]) ∧ 1 < s.inputBits .ascii ∧
      s.inputBits .ascii ≤ s.inputBitCapacity .ascii) :=
  ⟨⟨tables_onBytes builtZ_tables _ _, rfl, rfl, by decide, reads_two rfl rfl, by decide, by decide⟩,
    tables_onBytes builtZ_tables _ _, rfl, rfl, by decide, reads_two rfl rfl, by decide, by decide⟩

/-- Two codewords and an OBUF of one byte. -/
theorem witness_DecodeReportsOutputCapacity :
    let s := onBytes (smallObuf builtAb 1) [0x80] 2
    s.TablesInv ∧ s.phase = .built ∧ (∀ x ∈ [1], s.present x = true) ∧ [(1 : Byte)].length = s.params.obufSize ∧
      s.present 0 = true ∧ s.readsBits .packed (s.codeStream ([1] ++ [0])) ∧
      (s.codeStream ([1] ++ [0])).length ≤ s.inputBits .packed ∧ s.inputBits .packed ≤ s.inputBitCapacity .packed :=
  ⟨tables_onBytes (tables_smallObuf builtAb_tables 1 (by decide)) _ _, rfl, by decide +kernel, rfl, by decide +kernel,
    reads_two rfl rfl, by decide +kernel, by decide⟩

theorem witness_TravStartRestarts : builtAb.phase = .built := rfl

/-- The first and the last entry of the sequence, and the position after it. -/
theorem witness_TravNextReturnsEntryOrEnd :
    builtAb.phase = .built ∧
    (builtAb.tpos < builtAb.nnodes ∧ builtAb.traversal[builtAb.tpos.toNat]? = some (0, 1)) ∧
    ({ builtAb with tpos := 2 }.tpos < builtAb.nnodes ∧ { builtAb with tpos := 2 }.traversal[2]? = some (1, 1)) ∧
    ¬ { builtAb with tpos := 3 }.tpos < builtAb.nnodes := by
  refine ⟨rfl, ?_, ?_, ?_⟩ <;> decide +kernel

theorem witness_TraversalListsEveryNodeInOrder :
    (builtAb.FreqInv ∧ builtAb.phase = .built ∧ builtAb.TreeShape) ∧
    (builtZ.FreqInv ∧ builtZ.phase = .built ∧ builtZ.TreeShape) :=
  ⟨⟨builtAb_freq, rfl, builtAb_shape⟩, builtZ_freq, rfl, builtZ_shape⟩

theorem witness_TreeImmutableWhileBuilt :
    (Instr.clear ≠ .build ∧ exec .clear builtAb = .next (result .clear builtAb)) ∧ builtAb.phase = .built :=
  ⟨⟨by decide, exec_result _ _⟩, rfl⟩

/-- Each event that changes the phase. -/
theorem witness_PhaseChangesOnlyByTheseEvents :
    (let s := { countedAb with events := [.reset] }
    s.StatusInv ∧ step s = .next (stepResult s) ∧ (stepResult s).phase ≠ s.phase) ∧
    (let s := builtAb.accept 1
    s.StatusInv ∧ step s = .next (stepResult s) ∧ (stepResult s).phase ≠ s.phase) ∧
    (let s := (onBytes State.reset [1] 0).accept 2
    s.StatusInv ∧ step s = .next (stepResult s) ∧ (stepResult s).phase ≠ s.phase) ∧
    (let s := countedAb.accept 3
    s.StatusInv ∧ step s = .next (stepResult s) ∧ (stepResult s).phase ≠ s.phase) :=
  ⟨⟨⟨fun h => (Bool.false_ne_true h).elim, fun h => (Bool.false_ne_true h).elim⟩, rfl, by decide +kernel⟩,
    ⟨⟨fun _ => rfl, fun _ => rfl⟩, step_result_engine rfl, by decide +kernel⟩,
    ⟨⟨fun _ => rfl, fun _ => rfl⟩, step_result_engine rfl, by decide +kernel⟩,
    ⟨⟨fun _ => rfl, fun _ => rfl⟩, step_result_engine rfl, by decide +kernel⟩⟩

/-- Each way an access is illegal, at a boundary of its range, and legal accesses beside them. -/
theorem witness_IllegalAccessAnsweredWithError :
    let illegal (a : BusAccess) : Prop :=
      a.size = 3 ∨ a.addr.toNat % 2 ^ a.size.toNat ≠ 0 ∨ (a.addr.toNat < 0x10000 ∧ a.size ≠ 2)
    illegal ⟨false, 3, 0x10000, 0⟩ ∧ illegal ⟨true, 2, 0x3FFFE, 0⟩ ∧ illegal ⟨true, 1, 0x20001, 0⟩ ∧
    illegal ⟨false, 0, 0x0FFFF, 0⟩ ∧ ¬ illegal ⟨false, 0, 0x10001, 0⟩ ∧ ¬ illegal ⟨true, 2, 0x0FFFC, 0⟩ ∧
    ∃ t, hostAccess ⟨true, 2, 0x0FFFC, 0⟩ State.reset = .next t :=
  ⟨by decide, by decide, by decide, by decide, by decide, by decide, _, rfl⟩

/-- The first and the last address of the reserved region, and the first and the last offset that holds no register,
beside the idle block. -/
theorem witness_IdleRegisterReads :
    (BusAccess.legal ⟨false, 2, 0x30000, 0⟩ = true ∧ 0x30000 ≤ (0x30000 : BitVec 18).toNat) ∧
    (BusAccess.legal ⟨false, 0, 0x3FFFF, 0⟩ = true ∧ 0x30000 ≤ (0x3FFFF : BitVec 18).toNat) ∧
    State.reset.busy = false ∧ (0x058 ≤ 0x058 ∧ 0x058 < 0x10000 ∧ 0x058 % 4 = 0) ∧
    (0x058 ≤ 0xFFFC ∧ 0xFFFC < 0x10000 ∧ 0xFFFC % 4 = 0) := by decide

theorem witness_RegisterWrites :
    State.reset.busy = false ∧ (0x058 ≤ 0x058 ∧ 0x058 < 0x10000 ∧ 0x058 % 4 = 0) ∧
    (BusAccess.legal ⟨true, 1, 0x20000, 0⟩ = true ∧ 0x20000 ≤ (0x20000 : BitVec 18).toNat) ∧
    (BusAccess.legal ⟨true, 0, 0x3FFFF, 0⟩ = true ∧ 0x20000 ≤ (0x3FFFF : BitVec 18).toNat) := by decide

/-- DONE and CMD_OVR cleared in the cycle in which a NOP completes. -/
theorem witness_StatusWriteClears :
    let s := { State.reset.accept 0 with events := [.accessAtCompletion ⟨true, 2, 0x0000C, 6⟩], cmdOvr := true }
    s.busy = true ∧ s.events.head? = some (.accessAtCompletion ⟨true, 2, 0x0000C, 6⟩) := ⟨rfl, rfl⟩

theorem witness_CommandAcceptance : builtAb.busy = false := rfl
theorem witness_CommandDroppedWhileBusy : (builtAb.accept 4).busy = true := rfl

/-- The last word of the window, and a word that runs past an IBUF of 3 bytes. -/
theorem witness_IbufWriteLittleEndian :
    (BusAccess.legal ⟨true, 2, 0x1FFFC, 0x04030201⟩ = true ∧ BusAccess.region ⟨true, 2, 0x1FFFC, 0x04030201⟩ = .ibufWindow ∧
      State.reset.busy = false) ∧
    (let a : BusAccess := ⟨true, 2, 0x10000, 0x04030201⟩
    a.legal = true ∧ a.region = .ibufWindow ∧ a.offset + 2 < (sized 3 3 State.reset).params.ibufSize ∧
      ¬ a.offset + 3 < (sized 3 3 State.reset).params.ibufSize) := by decide

theorem witness_BufferReadsLittleEndian :
    (BusAccess.legal ⟨false, 1, 0x1FFFE, 0⟩ = true ∧ BusAccess.region ⟨false, 1, 0x1FFFE, 0⟩ = .ibufWindow) ∧
    (BusAccess.legal ⟨false, 2, 0x20000, 0⟩ = true ∧ BusAccess.region ⟨false, 2, 0x20000, 0⟩ = .obufWindow ∧
      State.reset.busy = false) := by decide

theorem witness_ReadsHaveNoSideEffect : BusAccess.we ⟨false, 2, 0x0001C, 0⟩ = false ∧ State.reset.busy = false := ⟨rfl, rfl⟩

/-- A running command: the first and the last word of OBUF, its last byte, and, with an OBUF of 3 bytes, a halfword that
ends past it and a byte just past it. -/
theorem witness_BusyReadsAreFreeOrCurrent :
    (builtAb.accept 4).busy = true ∧ (0 % 4 = 0 ∧ 0 + 4 ≤ (builtAb.accept 4).params.obufSize) ∧
    (65532 % 4 = 0 ∧ 65532 + 4 ≤ (builtAb.accept 4).params.obufSize ∧ 65532 < 0x10000) ∧
    (let a : BusAccess := ⟨false, 0, 0x2FFFF, 0⟩
    a.legal = true ∧ a.region = .obufWindow ∧ a.offset < (builtAb.accept 4).params.obufSize) ∧
    (let a : BusAccess := ⟨false, 1, 0x20002, 0⟩
    a.legal = true ∧ a.region = .obufWindow ∧ a.offset < ((smallObuf builtAb 3).accept 4).params.obufSize ∧
      ¬ a.offset + 1 < ((smallObuf builtAb 3).accept 4).params.obufSize) ∧
    (let a : BusAccess := ⟨false, 0, 0x20003, 0⟩
    a.legal = true ∧ a.region = .obufWindow ∧ ((smallObuf builtAb 3).accept 4).params.obufSize ≤ a.offset) := by decide

/-- Reset of an idle block, of a running QUERY and of a running DECODE. -/
theorem witness_HardReset :
    { builtAb with events := [.reset] }.events.head? = some .reset ∧
    (let s := { builtAb.accept 8 with events := [.reset] }
    s.events.head? = some .reset ∧ s.busy = true ∧ decodeWord s.lcmd = .ok (.query 0)) ∧
    (let s := { builtAb.accept 0x00010005 with events := [.reset] }
    s.events.head? = some .reset ∧ s.busy = true ∧
      ∃ fmt, decodeWord s.lcmd = .ok (.encode fmt) ∨ decodeWord s.lcmd = .ok (.decode fmt)) :=
  ⟨rfl, ⟨rfl, rfl, rfl⟩, rfl, rfl, .ascii, .inr rfl⟩

/-- A running ENCODE whose step completes it: every invariant holds in it. -/
theorem witness_StepKeepsInvariants :
    let s := (onBytes builtAb [1, 0] 0).accept 4
    s.params.legal = true ∧ s.BufferInv ∧ s.StatusInv ∧ s.IteratorInv ∧ s.FreqInv ∧ s.TablesInv ∧
      step s = .next (stepResult s) := by
  have h := tables_onBytes builtAb_tables [1, 0] 0
  have hf : ((onBytes builtAb [1, 0] 0).accept 4).FreqInv :=
    ⟨h.freq.nsym_eq, h.freq.total_eq, h.freq.rank_lt, h.freq.rank_hit, h.freq.empty_iff⟩
  exact ⟨by decide, ⟨by decide +kernel, by decide, by decide⟩, ⟨fun _ => rfl, fun _ => rfl⟩,
    ⟨fun _ => by decide, fun h => absurd rfl h⟩, hf,
    ⟨h.params, hf,
      fun hb => ⟨(h.tree hb).one, (h.tree hb).many, (h.tree hb).internal, (h.tree hb).leaf, (h.tree hb).children,
        (h.tree hb).oneParent, (h.tree hb).rootFreq⟩,
      fun hb => ⟨(h.code hb).path, (h.code hb).length, (h.code hb).absent⟩⟩, step_result_engine rfl⟩

end Sys2Proof.Tests
end

/-! # Scope: the engine's turn (R16, R102) and the round trip of the codec (R18, R165) -/

namespace Sys2Proof.Machine

/-! ## The engine's turn -/

/-- With no host event pending, or the event `complete` next, a step is the engine's turn. -/
theorem step_eq_engineTurn {s : State} (h : s.events = [] ∨ s.events.head? = some .complete) :
    step s = engineTurn s.takeEvent := by
  unfold step
  cases he : s.events with
  | nil => rfl
  | cons e es =>
    obtain rfl : e = .complete := by simpa [he] using h
    rfl

theorem engineTurn_idle {s : State} (h : s.busy = false) : engineTurn s = .next s := by
  simp [engineTurn, h]

theorem engineTurn_busy_ok {s : State} {i : Instr} (hb : s.busy = true) (hd : decodeWord s.lcmd = .ok i) :
    engineTurn s = exec i s := by
  simp [engineTurn, engineRun, hb, hd]

/-- Settles O5: the step is the engine's turn, which runs the latched command or, on an idle block, nothing. -/
theorem stepRunsTheAcceptedCommand : Obligations.StepRunsTheAcceptedCommand := by
  intro s he
  rw [step_eq_engineTurn he]
  exact ⟨fun _ hb hd => engineTurn_busy_ok (s := s.takeEvent) hb hd, fun hb => engineTurn_idle (s := s.takeEvent) hb⟩

/-! ## States with the same tables -/

/-- `u` has the parameters, FT, tree, code table and phase of `s`: what DECODE needs to be the same as for the ENCODE
it undoes (R18). -/
structure State.SameTables (u s : State) : Prop where
  params : u.params = s.params
  ft : u.ft = s.ft
  nsym : u.nsym = s.nsym
  total : u.total = s.total
  phase : u.phase = s.phase
  node : u.node = s.node
  nnodes : u.nnodes = s.nnodes
  root : u.root = s.root
  ct : u.ct = s.ct

namespace State.SameTables

variable {s u : State}

theorem present (h : u.SameTables s) (sym : Sym) : u.present sym = s.present sym := by
  simp [State.present, State.ftAt, h.ft]

theorem codeStream (h : u.SameTables s) (data : List Byte) : u.codeStream data = s.codeStream data := by
  simp [State.codeStream, State.ctAt, h.ct]

theorem inputBitCapacity (h : u.SameTables s) (fmt : Fmt) : u.inputBitCapacity fmt = s.inputBitCapacity fmt := by
  cases fmt <;> simp [State.inputBitCapacity, h.params]

theorem freqInv (h : u.SameTables s) (hs : s.FreqInv) : u.FreqInv := by
  obtain ⟨-, hft, hnsym, htotal, hphase, -, -, -, -⟩ := h
  cases u; cases s; cases hft; cases hnsym; cases htotal; cases hphase
  exact ⟨hs.nsym_eq, hs.total_eq, hs.rank_lt, hs.rank_hit, hs.empty_iff⟩

theorem treeShape (h : u.SameTables s) (hs : s.TreeShape) : u.TreeShape := by
  obtain ⟨-, hft, hnsym, htotal, -, hnode, hnnodes, hroot, -⟩ := h
  cases u; cases s; cases hft; cases hnsym; cases htotal; cases hnode; cases hnnodes; cases hroot
  exact ⟨hs.one, hs.many, hs.internal, hs.leaf, hs.children, hs.oneParent, hs.rootFreq⟩

theorem codePaths (h : u.SameTables s) (hs : s.CodePaths) : u.CodePaths := by
  obtain ⟨-, hft, -, -, -, hnode, -, hroot, hct⟩ := h
  cases u; cases s; cases hft; cases hnode; cases hroot; cases hct
  exact ⟨hs.path, hs.length, hs.absent⟩

/-- The invariants of the tables are about the tables only. -/
theorem tablesInv (h : u.SameTables s) (hs : s.TablesInv) : u.TablesInv where
  params := h.params ▸ hs.params
  freq := h.freqInv hs.freq
  tree hb := h.treeShape (hs.tree (h.phase ▸ hb))
  code hb := h.codePaths (hs.code (h.phase ▸ hb))

end State.SameTables

/-! ## Capacities -/

theorem Params.legal_iff (p : Params) :
    p.legal = true ↔ 1 ≤ p.ibufSize ∧ p.ibufSize ≤ 65536 ∧ 1 ≤ p.obufSize ∧ p.obufSize ≤ 65536 := by
  simp [Params.legal, and_assoc]

/-- A legal OBUF holds fewer bits than OUT_BITS counts (R8). -/
theorem State.outputBitCapacity_lt {s : State} (h : s.params.legal = true) (fmt : Fmt) :
    s.outputBitCapacity fmt < 2 ^ 32 := by
  rw [Params.legal_iff] at h
  cases fmt <;> simp only [State.outputBitCapacity] <;> omega

theorem formatBytes_length_le (fmt : Fmt) (bits : List Bool) : (formatBytes fmt bits).length ≤ bits.length := by
  cases fmt with
  | packed => simp only [formatBytes, packBytes_length, ceilDiv8]; omega
  | ascii => exact (asciiBytes_length bits).le

/-- OUT_LEN counts the bytes of a stream of fewer than 2^32 bits (R160). -/
theorem State.writeStream_outLen_toNat (s : State) (fmt : Fmt) {bits : List Bool} (h : bits.length < 2 ^ 32) :
    (s.writeStream fmt bits).outLen.toNat = (formatBytes fmt bits).length :=
  Nat.mod_eq_of_lt ((formatBytes_length_le fmt bits).trans_lt h)

/-- OUT_BITS counts the bits of a stream of fewer than 2^32 bits (R160). -/
theorem State.writeStream_outBits_toNat (s : State) (fmt : Fmt) {bits : List Bool} (h : bits.length < 2 ^ 32) :
    (s.writeStream fmt bits).outBits.toNat = bits.length :=
  Nat.mod_eq_of_lt h

/-! ## ENCODE of bytes that all have a code -/

theorem State.inputBytes_eq {s : State} {data : List Byte} (h : s.ibufHolds data) (hl : data.length = s.len.toNat) :
    s.inputBytes = data := by
  refine List.ext_getElem (by simp [State.inputBytes, hl]) fun i _ hi => ?_
  simp only [State.inputBytes, State.ibufBytes_getElem, Nat.zero_add, h i hi]

theorem State.codeStream_cons (s : State) (b : Byte) (data : List Byte) :
    s.codeStream (b :: data) = (s.ctAt b).cbits ++ s.codeStream data := rfl

/-- ENCODE's scan of present symbols whose codes fit gives the concatenation of the codes (R160). -/
theorem State.encodeScan_ok {s : State} {cap : Nat} {data : List Byte} (i used : Nat)
    (hp : ∀ b ∈ data, s.present b = true) (hc : used + (s.codeStream data).length ≤ cap) :
    s.encodeScan cap i used data = .ok (s.codeStream data) := by
  induction data generalizing i used with
  | nil => rfl
  | cons b data ih =>
    rw [State.codeStream_cons, List.length_append] at hc
    have hfit : used + (s.ctAt b).length + (s.codeStream data).length ≤ cap := by
      rw [CodeEntry.length]; omega
    rw [State.encodeScan, ih _ _ (fun x hx => hp x (.tail _ hx)) hfit, if_neg (by simp [hp b (.head _)]),
      if_neg (by omega), State.codeStream_cons]

/-- ENCODE succeeds and writes the code stream (R160). -/
theorem exec_encode_ok {fmt : Fmt} {s : State} {data : List Byte} (hphase : s.phase = .built) (hin : s.ibufHolds data)
    (hlen : data.length = s.len.toNat) (hfit : s.len.toNat ≤ s.params.ibufSize)
    (hp : ∀ b ∈ data, s.present b = true) (hc : (s.codeStream data).length ≤ s.outputBitCapacity fmt) :
    exec (.encode fmt) s = .next (s.writeStream fmt (s.codeStream data)).succeed := by
  refine runCommand_of_ok (by rw [hphase]; rfl) ?_
  rw [encodeBody, if_neg (by omega), State.inputBytes_eq hin hlen, State.encodeScan_ok 0 0 hp (by omega)]

/-! ## The bytes of a bitstream -/

/-- A block written at the start of OBUF is what OBUF holds there. -/
theorem State.obufHolds_of_writeBytes {t : State} {m : Memory} {vs : List Byte}
    (h : t.obuf = Memory.writeBytes m 0 vs) : t.obufHolds vs := by
  intro i hi
  simp [State.obufByte, h, Memory.lookup_writeBytes, hi]

/-- DECODE reads back the bits of a stream from its bytes in the same format (R165, R171). -/
theorem State.readsBits_of_ibufHolds {s : State} {fmt : Fmt} {bits : List Bool}
    (h : s.ibufHolds (formatBytes fmt bits)) : s.readsBits fmt bits := by
  intro k hk
  cases fmt with
  | packed =>
    have hlt : k / 8 < ceilDiv8 bits.length := by rw [ceilDiv8]; omega
    have hbyte := h (k / 8) (by simpa [formatBytes] using hlt)
    have hbit := packBytes_bit _ bits (k / 8) (k % 8) hlt (by omega)
    rw [Nat.div_add_mod, List.getD_eq_getElem _ _ hk, List.getElem?_eq_getElem (by simpa using hlt),
      Option.getD_some] at hbit
    simp only [State.inputBit, hbyte, formatBytes, hbit]
  | ascii =>
    have hbyte := h k (by simpa [formatBytes] using hk)
    simp only [formatBytes, asciiBytes, List.getElem_map] at hbyte
    cases hb : bits[k] <;> simp [State.inputBit, hbyte, hb]

/-! ## The input bits of DECODE from an index on -/

/-- The input of a DECODE reads as these bits from index `k` on. -/
def State.readsBitsFrom (s : State) (fmt : Fmt) (k : Nat) (bits : List Bool) : Prop :=
  ∀ j (h : j < bits.length), s.inputBit fmt (k + j) = .ok bits[j]

theorem State.readsBitsFrom_zero {s : State} {fmt : Fmt} {bits : List Bool} :
    s.readsBitsFrom fmt 0 bits ↔ s.readsBits fmt bits := by
  simp [State.readsBitsFrom, State.readsBits]

theorem State.readsBitsFrom_append {s : State} {fmt : Fmt} {k : Nat} {xs ys : List Bool} :
    s.readsBitsFrom fmt k (xs ++ ys) ↔ s.readsBitsFrom fmt k xs ∧ s.readsBitsFrom fmt (k + xs.length) ys := by
  constructor
  · intro h
    refine ⟨fun j hj => ?_, fun j hj => ?_⟩
    · rw [h j (by simp; omega), List.getElem_append_left hj]
    · rw [Nat.add_assoc, h _ (by simp; omega), List.getElem_append_right (by omega)]
      simp
  · rintro ⟨hx, hy⟩ j hj
    by_cases hjx : j < xs.length
    · rw [hx j hjx, List.getElem_append_left hjx]
    · rw [List.getElem_append_right (by omega), ← hy (j - xs.length) (by simp at hj; omega)]
      congr 1
      omega

theorem State.readsBitsFrom_cons {s : State} {fmt : Fmt} {k : Nat} {b : Bool} {bits : List Bool} :
    s.readsBitsFrom fmt k (b :: bits) ↔ s.inputBit fmt k = .ok b ∧ s.readsBitsFrom fmt (k + 1) bits := by
  rw [← List.singleton_append, State.readsBitsFrom_append]
  simp [State.readsBitsFrom]

/-! ## DECODE's walk -/

theorem State.childOf_toNat (s : State) (id : NodeId) (b : Bool) :
    (s.childOf id b).toNat = if b then (nodeAt s.node id.toNat).right.toNat else (nodeAt s.node id.toNat).left.toNat := by
  cases b <;> rfl

/-- A path's first step leads to the child; it starts at an INTERNAL node. -/
theorem State.follow_cons {s : State} {cur : NodeId} {b : Bool} {p : List Bool} {id : Nat}
    (h : follow s.node cur.toNat (b :: p) = some id) :
    (nodeAt s.node cur.toNat).kind = .internal ∧ follow s.node (s.childOf cur b).toNat p = some id := by
  rw [follow] at h
  split at h
  · exact ⟨‹_›, by rw [State.childOf_toNat, h]⟩
  · cases h

/-- A path that ends at an INTERNAL node starts at one. -/
theorem State.follow_start_internal {s : State} {cur : NodeId} {p : List Bool} {id : Nat}
    (h : follow s.node cur.toNat p = some id) (hid : (nodeAt s.node id).kind = .internal) :
    (nodeAt s.node cur.toNat).kind = .internal := by
  cases p with
  | nil => cases h; exact hid
  | cons b p => exact (State.follow_cons h).1

theorem State.walkBit_internal {s : State} {w : Walk} {b : Bool} (k : Nat)
    (h : (nodeAt s.node (s.childOf w.cur b).toNat).kind = .internal) :
    s.walkBit w k b = .ok { w with cur := s.childOf w.cur b } := by
  simp [State.walkBit, h]

theorem State.walkBit_leaf {s : State} {w : Walk} {b : Bool} (k : Nat)
    (h : (nodeAt s.node (s.childOf w.cur b).toNat).kind = .leaf) (hout : w.out < s.params.obufSize) :
    s.walkBit w k b =
      .ok { cur := s.root, start := k + 1, out := w.out + 1,
            obuf := Memory.write w.obuf w.out (nodeAt s.node (s.childOf w.cur b).toNat).sym } := by
  simp [State.walkBit, h, Nat.ne_of_lt hout]

theorem State.decodeScan_step {s : State} {fmt : Fmt} {n k : Nat} {w w' : Walk} {b : Bool}
    (hb : s.inputBit fmt k = .ok b) (hw : s.walkBit w k b = .ok w') :
    s.decodeScan fmt (n + 1) k w = s.decodeScan fmt n (k + 1) w' := by
  simp [State.decodeScan, hb, hw]

/-- Bits that lead to an INTERNAL node move the walk there and do nothing else (R170). -/
theorem State.decodeScan_path {s : State} {fmt : Fmt} {p : List Bool} {id n k : Nat} {w : Walk}
    (hf : follow s.node w.cur.toNat p = some id) (hid : (nodeAt s.node id).kind = .internal)
    (hr : s.readsBitsFrom fmt k p) :
    s.decodeScan fmt (p.length + n) k w = s.decodeScan fmt n (k + p.length) { w with cur := BitVec.ofNat 9 id } := by
  induction p generalizing k w with
  | nil =>
    cases hf
    simp
  | cons b p ih =>
    obtain ⟨-, hf'⟩ := State.follow_cons hf
    obtain ⟨hb, hr'⟩ := State.readsBitsFrom_cons.1 hr
    have hw := State.walkBit_internal k (State.follow_start_internal hf' hid)
    have hn : (b :: p).length + n = p.length + n + 1 := by simp; omega
    have hk : k + (b :: p).length = k + 1 + p.length := by simp; omega
    rw [hn, State.decodeScan_step hb hw, ih (w := { w with cur := s.childOf w.cur b }) hf' hr', hk]

/-- The walk at a codeword's first bit `k`, with `out` symbols written (R172). -/
def State.walkAt (s : State) (k out : Nat) (obuf : Memory) : Walk :=
  { cur := s.root, start := k, out := out, obuf := obuf }

/-- A path from a node id ends at a node id. -/
theorem State.follow_nodeId {s : State} {cur : NodeId} {p : List Bool} {id : Nat}
    (h : follow s.node cur.toNat p = some id) : ∃ x : NodeId, id = x.toNat := by
  induction p generalizing cur with
  | nil => cases h; exact ⟨cur, rfl⟩
  | cons b p ih => exact ih (State.follow_cons h).2

/-- A present symbol's code is a path to an INTERNAL node, then one bit to the symbol's leaf (R44, R150). -/
theorem State.code_split {s : State} (htree : s.TreeShape) (hcode : s.CodePaths) {sym : Sym}
    (hp : s.present sym = true) :
    ∃ (p : List Bool) (b : Bool) (cur : NodeId), (s.ctAt sym).cbits = p ++ [b] ∧
      follow s.node s.root.toNat p = some cur.toNat ∧ (nodeAt s.node cur.toNat).kind = .internal ∧
      (nodeAt s.node (s.childOf cur b).toNat).kind = .leaf ∧ (nodeAt s.node (s.childOf cur b).toNat).sym = sym := by
  have hne : (s.ctAt sym).cbits ≠ [] := List.ne_nil_of_length_pos (hcode.length sym hp).1
  have hpath := hcode.path sym hp
  have hleaf := htree.leaf sym hp
  rw [← List.dropLast_append_getLast hne, follow_append, Option.bind_eq_some_iff] at hpath
  obtain ⟨x, hx, hlast⟩ := hpath
  obtain ⟨cur, rfl⟩ := State.follow_nodeId hx
  obtain ⟨hint, hchild⟩ := State.follow_cons hlast
  rw [← Option.some.inj hchild] at hleaf
  exact ⟨_, _, cur, (List.dropLast_append_getLast hne).symm, hx, hint, by rw [hleaf], by rw [hleaf]⟩

/-- The bits of a present symbol's code, read from a codeword's start, write that symbol (R172). -/
theorem State.decodeScan_code {s : State} {fmt : Fmt} {sym : Sym} {n k out : Nat} {obuf : Memory}
    (htree : s.TreeShape) (hcode : s.CodePaths) (hp : s.present sym = true)
    (hr : s.readsBitsFrom fmt k (s.ctAt sym).cbits) (hout : out < s.params.obufSize) :
    s.decodeScan fmt ((s.ctAt sym).cbits.length + n) k (s.walkAt k out obuf) =
      s.decodeScan fmt n (k + (s.ctAt sym).cbits.length)
        (s.walkAt (k + (s.ctAt sym).cbits.length) (out + 1) (Memory.write obuf out sym)) := by
  obtain ⟨p, b, cur, hsplit, hpath, hint, hleaf, hsym⟩ := State.code_split htree hcode hp
  rw [hsplit] at hr ⊢
  obtain ⟨hrp, hrb⟩ := State.readsBitsFrom_append.1 hr
  obtain ⟨hb, -⟩ := State.readsBitsFrom_cons.1 hrb
  have hw := State.walkBit_leaf (w := { s.walkAt k out obuf with cur := cur }) (k + p.length) hleaf hout
  have hn : (p ++ [b]).length + n = p.length + (n + 1) := by simp; omega
  rw [hn, State.decodeScan_path (w := s.walkAt k out obuf) hpath hint hrp, BitVec.ofNat_toNat, BitVec.setWidth_eq,
    State.decodeScan_step hb hw, hsym, List.length_append]
  rfl

/-- The code stream of present symbols, read from a codeword's start, writes exactly those symbols (R172, R177). -/
theorem State.decodeScan_codeStream {s : State} {fmt : Fmt} {data : List Byte} {n k out : Nat} {obuf : Memory}
    (htree : s.TreeShape) (hcode : s.CodePaths) (hp : ∀ b ∈ data, s.present b = true)
    (hr : s.readsBitsFrom fmt k (s.codeStream data)) (hout : out + data.length ≤ s.params.obufSize) :
    s.decodeScan fmt ((s.codeStream data).length + n) k (s.walkAt k out obuf) =
      s.decodeScan fmt n (k + (s.codeStream data).length)
        (s.walkAt (k + (s.codeStream data).length) (out + data.length) (Memory.writeBytes obuf out data)) := by
  induction data generalizing k out obuf with
  | nil => simp [State.codeStream, Memory.writeBytes]
  | cons b data ih =>
    rw [State.codeStream_cons] at hr ⊢
    rw [List.length_cons] at hout
    obtain ⟨hrb, hrest⟩ := State.readsBitsFrom_append.1 hr
    rw [List.length_append, Nat.add_assoc, State.decodeScan_code htree hcode (hp b (.head _)) hrb (by omega),
      ih (fun x hx => hp x (.tail _ hx)) hrest (by omega), Memory.writeBytes, List.length_cons, Nat.add_assoc,
      Nat.add_assoc, Nat.add_comm 1]

/-- DECODE of the code stream of present symbols succeeds and leaves those symbols in OBUF (R170, R177). -/
theorem exec_decode_codeStream {fmt : Fmt} {s : State} {data : List Byte} (hinv : s.TablesInv)
    (hphase : s.phase = .built) (hp : ∀ b ∈ data, s.present b = true) (hr : s.readsBits fmt (s.codeStream data))
    (hn : s.inputBits fmt = (s.codeStream data).length) (hcap : s.inputBits fmt ≤ s.inputBitCapacity fmt)
    (hout : data.length ≤ s.params.obufSize) :
    exec (.decode fmt) s =
      .next (s.finishDecode (s.codeStream data).length
        (s.walkAt (s.codeStream data).length data.length (Memory.writeBytes s.obuf 0 data))).succeed := by
  have hscan := State.decodeScan_codeStream (n := 0) (k := 0) (out := 0) (obuf := s.obuf) (hinv.tree hphase)
    (hinv.code hphase) hp (State.readsBitsFrom_zero.2 hr) (by omega)
  rw [Nat.add_zero, Nat.zero_add, Nat.zero_add] at hscan
  refine runCommand_of_ok (by rw [hphase]; rfl) ?_
  rw [decodeBody, if_neg (by omega), hn, show s.walkStart = s.walkAt 0 0 s.obuf from rfl, hscan]
  exact if_neg (not_not.2 rfl)

/-! ## The round trip -/

/-- The input of a DECODE whose BITLEN or LEN was copied from an ENCODE's OUT_BITS or OUT_LEN has the length of that
ENCODE's bitstream (R87, R170). -/
theorem State.inputBits_of_copied {u s : State} {fmt : Fmt} {bits : List Bool} (hlt : bits.length < 2 ^ 32)
    (hb : fmt = .packed → u.bitlen = (s.writeStream fmt bits).outBits)
    (hl : fmt = .ascii → u.len = (s.writeStream fmt bits).outLen) : u.inputBits fmt = bits.length := by
  cases fmt with
  | packed => rw [State.inputBits, hb rfl, State.writeStream_outBits_toNat s _ hlt]
  | ascii => rw [State.inputBits, hl rfl, State.writeStream_outLen_toNat s _ hlt]; exact asciiBytes_length bits

/-- IBUF holds the bytes of a bitstream whose ENCODE output was copied to it. -/
theorem State.ibufHolds_of_copied {u s : State} {fmt : Fmt} {bits : List Bool} (hlt : bits.length < 2 ^ 32)
    (hcopy : ∀ a < (s.writeStream fmt bits).outLen.toNat, u.ibufByte a = (s.writeStream fmt bits).obufByte a) :
    u.ibufHolds (formatBytes fmt bits) := by
  intro i hi
  rw [hcopy i (by rwa [State.writeStream_outLen_toNat s fmt hlt]), State.obufHolds_of_writeBytes rfl i hi]

/-- Settles O34: ENCODE leaves the code stream in OBUF, its copy reads as the same bits, and DECODE of a code stream
writes the symbols it was made of. -/
theorem encodeThenDecodeRoundTrip : Obligations.EncodeThenDecodeRoundTrip := by
  intro fmt s data hinv hphase hin hlen hfit hp hcap hincap hout
  refine ⟨_, exec_encode_ok hphase hin hlen hfit hp hcap, ⟨rfl, rfl, rfl, rfl⟩, ?_⟩
  intro u hparams hft hnsym htotal hphase' hnode hnnodes hroot hct hcopy hbitlen hulen
  have hsame : u.SameTables s := ⟨hparams, hft, hnsym, htotal, hphase', hnode, hnnodes, hroot, hct⟩
  have hlt := hcap.trans_lt (State.outputBitCapacity_lt hinv.params fmt)
  have hstream := hsame.codeStream data
  have hr : u.readsBits fmt (u.codeStream data) := by
    rw [hstream]
    exact State.readsBits_of_ibufHolds (State.ibufHolds_of_copied hlt hcopy)
  have hn : u.inputBits fmt = (u.codeStream data).length := by
    rw [hstream]
    exact State.inputBits_of_copied (s := s) hlt hbitlen hulen
  have hucap : u.inputBits fmt ≤ u.inputBitCapacity fmt := by
    rwa [hn, hstream, hsame.inputBitCapacity]
  have hexec := exec_decode_codeStream (hsame.tablesInv hinv) (hsame.phase.trans hphase)
    (fun b hb => (hsame.present b).trans (hp b hb)) hr hn hucap (by rwa [hsame.params])
  have hsyms : data.length < 2 ^ 32 := hlen ▸ s.len.isLt
  exact ⟨_, hexec, ⟨rfl, rfl, rfl, rfl⟩, Nat.mod_eq_of_lt hsyms, State.obufHolds_of_writeBytes rfl⟩

end Sys2Proof.Machine


/-! # Scope: what every step keeps (R42, R45, R46, R49), the phases (R30), the frame of a command (R53), and the
host's register accesses (R22-R29) -/

namespace Sys2Proof.Machine

/-! ## What a step can do -/

/-- What an engine turn on a running command keeps: it is `exec` of a command or the ILLEGAL_COMMAND error. -/
theorem engineTurn_keeps {P : State → Prop} (hexec : ∀ i s t, P s → exec i s = .next t → P t)
    (hillegal : ∀ s w, P s → P (s.raiseError false ⟨.illegalCommand, w⟩)) {s t : State} (hs : P s)
    (h : engineTurn s = .next t) : P t := by
  rcases engineTurn_cases s with ⟨-, he⟩ | ⟨-, i, -, he⟩ | ⟨-, -, -, he⟩ <;> rw [he] at h
  · cases h; exact hs
  · exact hexec i s t hs h
  · cases h; exact hillegal s _ hs

/-- A property is kept by every step if taking an event, a host access, a command, the ILLEGAL_COMMAND error and reset
keep it. -/
theorem step_keeps {P : State → Prop} (htake : ∀ s, P s → P s.takeEvent)
    (haccess : ∀ a s t, P s → hostAccess a s = .next t → P t) (hexec : ∀ i s t, P s → exec i s = .next t → P t)
    (hillegal : ∀ s w, P s → P (s.raiseError false ⟨.illegalCommand, w⟩)) (hreset : ∀ s, P s → P s.hardReset)
    {s t : State} (hs : P s) (h : step s = .next t) : P t := by
  rcases step_cases h with ⟨-, h⟩ | ⟨a, -, -, h⟩ | ⟨a, -, u, -, -, hu, h⟩ | ⟨-, -, rfl⟩
  · exact engineTurn_keeps hexec hillegal (htake s hs) h
  · exact haccess a _ t (htake s hs) h
  · exact engineTurn_keeps hexec hillegal (haccess a _ u (htake s hs) hu) h
  · exact hreset _ (htake s hs)

/-- What a host access that is answered does: an error answer, a read, a write without effect, or a write to CMD,
STATUS, CTRL, LEN, BITLEN or IBUF. -/
theorem hostAccess_cases {a : BusAccess} {s t : State} (h : hostAccess a s = .next t) :
    t = s.answerError a ∨ t = s.busRead a ∨ t = s.answerWrite ∨ t = (s.writeCmd a.wdata).answerWrite ∨
    t = (s.writeStatus a.wdata).answerWrite ∨ t = (s.writeCtrl a.wdata).answerWrite ∨
    (s.busy = false ∧ t = { s with len := a.wdata }.answerWrite) ∨
    (s.busy = false ∧ t = { s with bitlen := a.wdata }.answerWrite) ∨
    ∃ i bytes, t = { s with ibuf := Memory.writeBytes s.ibuf i (s.bytesInIbuf i bytes) }.answerWrite := by
  unfold hostAccess at h
  split at h
  · split at h
    · unfold State.busWrite at h
      split at h
      · unfold State.writeReg at h
        split at h
        case h_2 => cases h; simp
        case h_3 => cases h; simp
        case h_4 => cases h; simp
        case h_5 => split at h <;> cases h; simp_all
        case h_6 => split at h <;> cases h; simp_all
        all_goals (cases h; simp)
      · unfold State.writeIbuf at h
        split at h <;> cases h
        iterate 8 right
        exact ⟨_, _, rfl⟩
      · cases h; simp
      · cases h; simp
    · cases h; simp
  · cases h; simp

/-- No read takes a draw back (R239, U4). -/
theorem State.busRead_draws (s : State) (a : BusAccess) : s.draws ≤ (s.busRead a).draws := by
  unfold State.busRead State.readReg State.readIbuf State.readObuf
  split
  · split
    · exact le_rfl
    · split
      · exact Nat.le_succ _
      · exact le_rfl
  · exact le_rfl
  · split
    · exact Nat.le_succ _
    · exact le_rfl
  · exact le_rfl

/-! ## The canonical form of the buffers -/

/-- The buffers' invariant is about the parameters, the two buffers and the draws only. -/
theorem State.BufferInv.of_same {s t : State} (hs : s.BufferInv) (hp : t.params = s.params) (hi : t.ibuf = s.ibuf)
    (ho : t.obuf = s.obuf) (hd : t.obufDraw = s.obufDraw) (hdraws : s.draws ≤ t.draws) : t.BufferInv where
  ibuf_wf := by rw [hp, hi]; exact hs.ibuf_wf
  obuf_wf := by rw [hp, ho]; exact hs.obuf_wf
  drawn_before := by rw [hd]; exact hs.drawn_before.trans_le hdraws

theorem State.BufferInv.redrawObuf {s : State} (hs : s.BufferInv) : s.redrawObuf.BufferInv where
  ibuf_wf := hs.ibuf_wf
  obuf_wf := rfl
  drawn_before := Nat.lt_succ_self s.draws

/-- A command that writes OBUF in canonical form keeps the buffers' invariant. -/
theorem State.BufferInv.of_obuf {s t : State} (hs : s.BufferInv) (hp : t.params = s.params) (hi : t.ibuf = s.ibuf)
    (ho : Memory.wf s.params.obufSize t.obuf = true) (hd : t.obufDraw = s.obufDraw) (hdraws : t.draws = s.draws) :
    t.BufferInv where
  ibuf_wf := by rw [hp, hi]; exact hs.ibuf_wf
  obuf_wf := by rw [hp]; exact ho
  drawn_before := by rw [hd, hdraws]; exact hs.drawn_before

theorem State.BufferInv.raiseError {s : State} (hs : s.BufferInv) (codec : Bool) (e : CmdError) :
    (s.raiseError codec e).BufferInv := by
  rw [State.raiseError_frame]
  cases hscan : codec && e.inScan
  · exact hs.of_same rfl rfl rfl rfl le_rfl
  · exact hs.redrawObuf.of_same rfl rfl rfl rfl le_rfl

@[simp] theorem State.raiseError_params (s : State) (codec : Bool) (e : CmdError) :
    (s.raiseError codec e).params = s.params := by
  rw [State.raiseError_frame]

/-- Bytes cut to those that exist end inside IBUF (R60). -/
theorem State.bytesInIbuf_fits (s : State) (i : Nat) (bytes : List Byte) :
    s.bytesInIbuf i bytes = [] ∨ i + (s.bytesInIbuf i bytes).length ≤ s.params.ibufSize := by
  by_cases hi : i < s.params.ibufSize
  · right
    simp only [State.bytesInIbuf, List.length_take]
    omega
  · left
    simp [State.bytesInIbuf, Nat.sub_eq_zero_of_le (not_lt.1 hi)]

theorem hostAccess_keeps_bufferInv {a : BusAccess} {s t : State} (hs : s.BufferInv) (h : hostAccess a s = .next t) :
    t.BufferInv := by
  rcases hostAccess_cases h with rfl | rfl | rfl | rfl | rfl | rfl | ⟨-, rfl⟩ | ⟨-, rfl⟩ | ⟨i, bytes, rfl⟩
  · exact hs.of_same rfl rfl rfl rfl le_rfl
  · have hdraws := s.busRead_draws a
    rw [State.busRead_frame] at hdraws ⊢
    exact hs.of_same rfl rfl rfl rfl hdraws
  · exact hs.of_same rfl rfl rfl rfl le_rfl
  · unfold State.writeCmd
    split <;> exact hs.of_same rfl rfl rfl rfl le_rfl
  · exact hs.of_same rfl rfl rfl rfl le_rfl
  · exact hs.of_same rfl rfl rfl rfl le_rfl
  · exact hs.of_same rfl rfl rfl rfl le_rfl
  · exact hs.of_same rfl rfl rfl rfl le_rfl
  · exact ⟨Memory.wf_writeBytes (s.bytesInIbuf_fits i bytes) hs.ibuf_wf, hs.obuf_wf, hs.drawn_before⟩

theorem hostAccess_params {a : BusAccess} {s t : State} (h : hostAccess a s = .next t) : t.params = s.params := by
  rw [hostAccess_frame h]

theorem State.BufferInv.hardReset {s : State} (hs : s.BufferInv) : s.hardReset.BufferInv := by
  have habandon : s.abandonCodec.BufferInv := by
    unfold State.abandonCodec
    split
    · exact hs.redrawObuf
    · exact hs
  exact habandon.of_same rfl rfl rfl rfl (Nat.le_succ _)

theorem State.hardReset_params (s : State) : s.hardReset.params = s.params := by
  unfold State.hardReset State.abandonCodec
  split <;> rfl

/-! ## What ENCODE stores -/

/-- The bits ENCODE's scan appends fit what is left of the capacity (R160). -/
theorem State.encodeScan_length {s : State} {cap : Nat} {data : List Byte} {i used : Nat} {bits : List Bool}
    (hused : used ≤ cap) (h : s.encodeScan cap i used data = .ok bits) : used + bits.length ≤ cap := by
  induction data generalizing i used bits with
  | nil => cases h; exact hused
  | cons b data ih =>
    unfold State.encodeScan at h
    split at h
    · cases h
    split at h
    · cases h
    next hfit =>
      split at h
      · next rest hrest =>
        cases h
        have := ih (not_lt.1 hfit) hrest
        rw [List.length_append, ← Nat.add_assoc]
        exact this
      · cases h

/-- A bitstream within the capacity of OBUF takes at most OBUF_SIZE bytes (R160). -/
theorem State.formatBytes_length_le_obufSize {s : State} {fmt : Fmt} {bits : List Bool}
    (h : bits.length ≤ s.outputBitCapacity fmt) : (formatBytes fmt bits).length ≤ s.params.obufSize := by
  cases fmt with
  | packed =>
    simp only [State.outputBitCapacity] at h
    simp only [formatBytes, packBytes_length, ceilDiv8]
    omega
  | ascii => exact (asciiBytes_length bits).trans_le h

/-- A successful ENCODE writes a bitstream that OBUF has room for (R160). -/
theorem encodeBody_ok {fmt : Fmt} {s u : State} (h : encodeBody fmt s = .ok u) :
    ∃ bits, bits.length ≤ s.outputBitCapacity fmt ∧ u = s.writeStream fmt bits := by
  unfold encodeBody at h
  split at h
  · cases h
  split at h
  · next bits hscan =>
    cases h
    exact ⟨bits, by simpa using State.encodeScan_length (Nat.zero_le _) hscan, rfl⟩
  · cases h

/-! ## What DECODE stores -/

/-- A walk that began with OBUF `m`: it has written canonical OBUF bytes below `out` only, and `out` is at most
OBUF_SIZE (R172, R176). -/
structure WalkInv (size : Nat) (m : Memory) (w : Walk) : Prop where
  out_le : w.out ≤ size
  keeps_wf : Memory.wf size m = true → Memory.wf size w.obuf = true
  beyond : ∀ j, w.out ≤ j → Memory.lookup w.obuf j = Memory.lookup m j

theorem State.walkStart_inv (s : State) : WalkInv s.params.obufSize s.obuf s.walkStart :=
  ⟨Nat.zero_le _, id, fun _ _ => rfl⟩

theorem WalkInv.walkBit {s : State} {m : Memory} {w w' : Walk} {k : Nat} {b : Bool}
    (hw : WalkInv s.params.obufSize m w) (h : s.walkBit w k b = .ok w') : WalkInv s.params.obufSize m w' := by
  obtain ⟨hout, hwf, hbeyond⟩ := hw
  unfold State.walkBit at h
  split at h
  · cases h
  · split at h
    · cases h
    · cases h
      refine ⟨by dsimp only; omega, fun hm => Memory.wf_write _ (by omega) (hwf hm), fun j hj => ?_⟩
      dsimp only at hj
      rw [Memory.lookup_write_ne _ _ (by omega), hbeyond j (by omega)]
  · cases h; exact ⟨hout, hwf, hbeyond⟩
  · cases h; exact ⟨hout, hwf, hbeyond⟩

theorem WalkInv.decodeScan {s : State} {m : Memory} {fmt : Fmt} {n k : Nat} {w w' : Walk}
    (hw : WalkInv s.params.obufSize m w) (h : s.decodeScan fmt n k w = .ok w') : WalkInv s.params.obufSize m w' := by
  induction n generalizing k w with
  | zero => cases h; exact hw
  | succ n ih =>
    unfold State.decodeScan at h
    split at h
    · cases h
    split at h
    · cases h
    · next hbit => exact ih (hw.walkBit hbit) h

/-- A successful DECODE ends with a walk that stored inside OBUF, below OUT_LEN only (R170, R172). -/
theorem decodeBody_ok {fmt : Fmt} {s u : State} (h : decodeBody fmt s = .ok u) :
    ∃ w, WalkInv s.params.obufSize s.obuf w ∧ u = s.finishDecode (s.inputBits fmt) w := by
  unfold decodeBody at h
  split at h
  · cases h
  split at h
  · cases h
  · next w hscan =>
    split at h
    · cases h
    · cases h
      exact ⟨w, s.walkStart_inv.decodeScan hscan, rfl⟩


/-! ## What a successful command writes -/

theorem countBody_ok {s u : State} (h : countBody s = .ok u) :
    s.len.toNat ≤ s.params.ibufSize ∧ s.total.toNat + s.len.toNat ≤ 2 ^ 32 - 1 ∧
      u = (s.countBytes s.inputBytes).collectIfAny := by
  unfold countBody at h
  split at h
  · cases h
  split at h
  · cases h
  · next hlen htotal =>
    cases h
    exact ⟨not_lt.1 hlen, not_lt.1 htotal, rfl⟩

/-- COUNT writes FT, NSYM, TOTAL and the phase only (R120). -/
theorem countBody_frame {s u : State} (h : countBody s = .ok u) :
    u = { s with ft := u.ft, nsym := u.nsym, total := u.total, phase := u.phase } := by
  obtain ⟨-, -, rfl⟩ := countBody_ok h
  rw [State.countBytes_frame]
  rfl

/-- COUNT leaves COLLECT if a symbol is counted, else the phase as it was (R120). -/
theorem countBody_phase {s u : State} (h : countBody s = .ok u) :
    u.phase = if u.nsym = 0 then s.phase else .collect := by
  obtain ⟨-, -, rfl⟩ := countBody_ok h
  rw [State.collectIfAny_phase, State.collectIfAny_nsym, State.countBytes_frame]

/-- TRAV_NEXT writes RES and TPOS only (R187). -/
theorem travNextBody_frame {s u : State} (h : travNextBody s = .ok u) : u = { s with res := u.res, tpos := u.tpos } := by
  unfold travNextBody at h
  split at h <;> cases h <;> rfl

/-- A command other than ENCODE and DECODE that succeeds writes tables and result registers only: no buffer, no operand
register, no flag but the phase, and no draw (R53). -/
theorem bodyOf_frame {i : Instr} {s u : State} (hi : i.isCodec = false) (h : bodyOf i s = .ok u) :
    u = { s with ft := u.ft, nsym := u.nsym, total := u.total, phase := u.phase, tpos := u.tpos, res := u.res,
                 outLen := u.outLen, outBits := u.outBits, node := u.node, nnodes := u.nnodes, root := u.root,
                 ct := u.ct } := by
  cases i with
  | nop => cases h; rfl
  | clear => cases h; rfl
  | count => rw [countBody_frame h]
  | build => cases h; rfl
  | encode fmt => cases hi
  | decode fmt => cases hi
  | travStart => cases h; rfl
  | travNext => rw [travNextBody_frame h]
  | query sym => cases h; rfl

/-! ## Every step keeps the buffers canonical -/

theorem bodyOf_keeps_bufferInv {i : Instr} {s u : State} (hs : s.BufferInv) (h : bodyOf i s = .ok u) :
    u.BufferInv ∧ u.params = s.params := by
  cases hi : i.isCodec
  · rw [bodyOf_frame hi h]
    exact ⟨hs.of_same rfl rfl rfl rfl le_rfl, rfl⟩
  cases i with
  | encode fmt =>
    obtain ⟨bits, hbits, rfl⟩ := encodeBody_ok h
    have hfits := State.formatBytes_length_le_obufSize hbits
    exact ⟨hs.of_obuf rfl rfl (Memory.wf_writeBytes (.inr (by omega)) hs.obuf_wf) rfl rfl, rfl⟩
  | decode fmt =>
    obtain ⟨w, hw, rfl⟩ := decodeBody_ok h
    exact ⟨hs.of_obuf rfl rfl (hw.keeps_wf hs.obuf_wf) rfl rfl, rfl⟩
  | _ => cases hi

theorem exec_keeps_bufferInv {i : Instr} {s t : State} (hs : s.BufferInv) (h : exec i s = .next t) :
    t.BufferInv ∧ t.params = s.params := by
  rcases exec_cases h with ⟨e, -, rfl⟩ | ⟨e, -, -, rfl⟩ | ⟨u, -, hu, rfl⟩
  · exact ⟨hs.raiseError _ e, s.raiseError_params _ e⟩
  · exact ⟨hs.raiseError _ e, s.raiseError_params _ e⟩
  · obtain ⟨hinv, hparams⟩ := bodyOf_keeps_bufferInv hs hu
    exact ⟨hinv.of_same rfl rfl rfl rfl le_rfl, hparams⟩

/-- Settles O57: each part of a step keeps both buffers canonical; ENCODE and DECODE store inside OBUF, and the host's
bytes past IBUF_SIZE are dropped. -/
theorem stepKeepsBufferInv : Obligations.StepKeepsBufferInv := by
  intro s t _ hs hstep
  refine step_keeps (P := fun u => u.BufferInv ∧ u.params = s.params) ?_ ?_ ?_ ?_ ?_ ⟨hs, rfl⟩ hstep
  · exact fun u ⟨hu, hp⟩ => ⟨hu.of_same rfl rfl rfl rfl le_rfl, hp⟩
  · exact fun a u v ⟨hu, hp⟩ h => ⟨hostAccess_keeps_bufferInv hu h, (hostAccess_params h).trans hp⟩
  · intro i u v ⟨hu, hp⟩ h
    obtain ⟨hv, hvp⟩ := exec_keeps_bufferInv hu h
    exact ⟨hv, hvp.trans hp⟩
  · exact fun u w ⟨hu, hp⟩ => ⟨hu.raiseError _ _, (u.raiseError_params _ _).trans hp⟩
  · exact fun u ⟨hu, hp⟩ => ⟨hu.hardReset, u.hardReset_params.trans hp⟩

/-! ## The table of all symbols -/

theorem allSyms_nodup : allSyms.Nodup := by
  refine List.Nodup.map_on (fun x hx y hy h => ?_) List.nodup_range
  have := congrArg BitVec.toNat h
  rwa [BitVec.toNat_ofNat, BitVec.toNat_ofNat, Nat.mod_eq_of_lt (List.mem_range.1 hx),
    Nat.mod_eq_of_lt (List.mem_range.1 hy)] at this

theorem mem_allSyms (b : Sym) : b ∈ allSyms :=
  List.mem_map.2 ⟨b.toNat, List.mem_range.2 b.isLt, by simp⟩

/-- All symbols are one symbol and the others. -/
theorem allSyms_perm (b : Sym) : allSyms.Perm (b :: allSyms.erase b) := List.perm_cons_erase (mem_allSyms b)

theorem ne_of_mem_erase {b x : Sym} (h : x ∈ allSyms.erase b) : x ≠ b :=
  (allSyms_nodup.mem_erase_iff.1 h).1

theorem sum_allSyms (f : Sym → Nat) (b : Sym) : (allSyms.map f).sum = f b + ((allSyms.erase b).map f).sum := by
  rw [((allSyms_perm b).map f).sum_eq, List.map_cons, List.sum_cons]

theorem State.presentSyms_length (s : State) (b : Sym) :
    s.presentSyms.length = (if s.present b then 1 else 0) + (allSyms.erase b).countP s.present := by
  rw [State.presentSyms, ← List.countP_eq_length_filter, (allSyms_perm b).countP_eq, List.countP_cons, Nat.add_comm]

theorem State.mem_presentSyms (s : State) (b : Sym) : b ∈ s.presentSyms ↔ s.present b = true := by
  simp [State.presentSyms, mem_allSyms]

/-- A symbol is present exactly if its count is not 0 (R40). -/
theorem State.present_iff (s : State) (b : Sym) : s.present b = true ↔ (s.ftAt b).count ≠ 0 := by
  simp [State.present]

/-! ## COUNT keeps the invariants of FT -/

/-- The invariants of FT without the phase: what holds also inside COUNT's loop (R42). -/
structure State.CountsInv (s : State) : Prop where
  nsym_eq : s.nsym.toNat = s.presentSyms.length
  total_eq : s.total.toNat = (allSyms.map fun sym => (s.ftAt sym).count.toNat).sum
  rank_lt : ∀ sym, s.present sym = true → (s.ftAt sym).rank.toNat < s.nsym.toNat
  rank_hit : ∀ r < s.nsym.toNat, ∃ sym, s.present sym = true ∧ (s.ftAt sym).rank.toNat = r

theorem State.freqInv_iff (s : State) : s.FreqInv ↔ s.CountsInv ∧ (s.phase = .empty ↔ s.nsym = 0) :=
  ⟨fun h => ⟨⟨h.nsym_eq, h.total_eq, h.rank_lt, h.rank_hit⟩, h.empty_iff⟩,
    fun ⟨h, he⟩ => ⟨h.nsym_eq, h.total_eq, h.rank_lt, h.rank_hit, he⟩⟩

/-- Nothing is counted exactly if no symbol is present. -/
theorem State.CountsInv.nsym_eq_zero_iff {s : State} (hs : s.CountsInv) : s.nsym = 0 ↔ s.total = 0 := by
  rw [← BitVec.toNat_inj, ← BitVec.toNat_inj, hs.nsym_eq, hs.total_eq]
  simp [State.presentSyms, List.filter_eq_nil_iff, List.sum_eq_zero_iff, State.present, ← BitVec.toNat_inj]

/-- No count exceeds the total. -/
theorem State.CountsInv.count_le_total {s : State} (hs : s.CountsInv) (b : Sym) :
    (s.ftAt b).count.toNat ≤ s.total.toNat := by
  rw [hs.total_eq, sum_allSyms _ b]
  exact Nat.le_add_right _ _

theorem State.CountsInv.nsym_le {s : State} (hs : s.CountsInv) : s.nsym.toNat ≤ 256 := by
  rw [hs.nsym_eq]
  exact (List.length_filter_le _ _).trans_eq (by simp [allSyms])

theorem State.CountsInv.nsym_lt_of_absent {s : State} (hs : s.CountsInv) {b : Sym} (hb : s.present b = false) :
    s.nsym.toNat < 256 := by
  rw [hs.nsym_eq, s.presentSyms_length b, hb, if_neg Bool.false_ne_true, Nat.zero_add]
  calc (allSyms.erase b).countP s.present ≤ (allSyms.erase b).length := List.countP_le_length
    _ < 256 := by rw [List.length_erase_of_mem (mem_allSyms b)]; simp [allSyms]

theorem State.countByte_present_ne (s : State) {b x : Sym} (h : x ≠ b) :
    (s.countByte b).present x = s.present x := by
  rw [State.present, State.present, s.countByte_ftAt_ne h]

/-- While the total does not overflow, neither does a count (R120). -/
theorem State.CountsInv.countByte_count {s : State} (hs : s.CountsInv) (b : Byte)
    (ht : s.total.toNat + 1 < 2 ^ 32) : ((s.countByte b).ftAt b).count.toNat = (s.ftAt b).count.toNat + 1 := by
  have hlt : (s.ftAt b).count.toNat + 1 < 2 ^ 32 := (Nat.succ_le_succ (hs.count_le_total b)).trans_lt ht
  rw [s.countByte_ftAt_same]
  exact BitVec.toNat_add_of_lt hlt

theorem State.CountsInv.countByte_present_same {s : State} (hs : s.CountsInv) (b : Byte)
    (ht : s.total.toNat + 1 < 2 ^ 32) : (s.countByte b).present b = true := by
  rw [State.present_iff, Ne, ← BitVec.toNat_inj, hs.countByte_count b ht]
  exact Nat.succ_ne_zero _

theorem State.countByte_total_toNat {s : State} (b : Byte) (ht : s.total.toNat + 1 < 2 ^ 32) :
    (s.countByte b).total.toNat = s.total.toNat + 1 :=
  BitVec.toNat_add_of_lt ht

theorem State.CountsInv.countByte_nsym {s : State} (hs : s.CountsInv) (b : Byte) :
    (s.countByte b).nsym.toNat = s.nsym.toNat + if s.present b then 0 else 1 := by
  simp only [State.countByte]
  cases hb : s.present b
  · have hlt : s.nsym.toNat + 1 < 2 ^ 9 := (Nat.succ_lt_succ (hs.nsym_lt_of_absent hb)).trans (by decide)
    rw [if_pos (by simpa [State.present] using hb)]
    exact BitVec.toNat_add_of_lt hlt
  · rw [if_neg (by simpa [State.present] using hb)]
    rfl

/-- A symbol keeps its rank, or takes NSYM as its rank when it is first counted (R121). -/
theorem State.CountsInv.countByte_rank {s : State} (hs : s.CountsInv) (b : Byte) :
    ((s.countByte b).ftAt b).rank.toNat = if s.present b then (s.ftAt b).rank.toNat else s.nsym.toNat := by
  rw [s.countByte_ftAt_same]
  cases hb : s.present b
  · have hlt := hs.nsym_lt_of_absent hb
    simp only [State.present, bne_eq_false_iff_eq] at hb
    simp [hb, Nat.mod_eq_of_lt hlt]
  · rw [if_neg ((s.present_iff b).1 hb), if_pos rfl]

/-- One pass of COUNT's loop keeps the invariants of FT, as long as the total does not overflow (R42, R120). -/
theorem State.CountsInv.countByte {s : State} (hs : s.CountsInv) (b : Byte) (ht : s.total.toNat + 1 < 2 ^ 32) :
    (s.countByte b).CountsInv where
  nsym_eq := by
    have hrest : (allSyms.erase b).countP (s.countByte b).present = (allSyms.erase b).countP s.present :=
      List.countP_congr fun x hx => by rw [s.countByte_present_ne (ne_of_mem_erase hx)]
    rw [hs.countByte_nsym, hs.nsym_eq, State.presentSyms_length _ b, State.presentSyms_length _ b,
      hs.countByte_present_same b ht, hrest]
    cases s.present b
    · simp [Nat.add_comm]
    · simp
  total_eq := by
    have hrest : (allSyms.erase b).map (fun x => ((s.countByte b).ftAt x).count.toNat) =
        (allSyms.erase b).map fun x => (s.ftAt x).count.toNat :=
      List.map_congr_left fun x hx => by rw [s.countByte_ftAt_ne (ne_of_mem_erase hx)]
    rw [State.countByte_total_toNat b ht, hs.total_eq, sum_allSyms _ b, sum_allSyms _ b, hs.countByte_count b ht, hrest]
    omega
  rank_lt x hx := by
    rw [hs.countByte_nsym]
    by_cases h : x = b
    · subst h
      rw [hs.countByte_rank]
      cases hp : s.present x
      · simp
      · simpa using hs.rank_lt x hp
    · rw [s.countByte_present_ne h] at hx
      rw [s.countByte_ftAt_ne h]
      exact (hs.rank_lt x hx).trans_le (Nat.le_add_right _ _)
  rank_hit r hr := by
    rw [hs.countByte_nsym] at hr
    by_cases hlt : r < s.nsym.toNat
    · obtain ⟨x, hx, hrank⟩ := hs.rank_hit r hlt
      refine ⟨x, ?_⟩
      by_cases h : x = b
      · subst h
        exact ⟨hs.countByte_present_same x ht, by rw [hs.countByte_rank, hx, if_pos rfl, hrank]⟩
      · rw [s.countByte_present_ne h, s.countByte_ftAt_ne h]
        exact ⟨hx, hrank⟩
    · cases hb : s.present b
      · rw [hb] at hr
        refine ⟨b, hs.countByte_present_same b ht, ?_⟩
        rw [if_neg Bool.false_ne_true] at hr
        rw [hs.countByte_rank, hb, if_neg Bool.false_ne_true]
        omega
      · rw [hb] at hr
        exact absurd hr hlt

/-- COUNT's loop keeps the invariants of FT and adds the length of the input to the total (R42, R120). -/
theorem State.CountsInv.countBytes {s : State} (hs : s.CountsInv) (input : List Byte)
    (ht : s.total.toNat + input.length < 2 ^ 32) :
    (s.countBytes input).CountsInv ∧ (s.countBytes input).total.toNat = s.total.toNat + input.length := by
  induction input generalizing s with
  | nil => exact ⟨hs, rfl⟩
  | cons b input ih =>
    rw [List.length_cons] at ht ⊢
    have htotal := State.countByte_total_toNat (s := s) b (by omega)
    obtain ⟨hinv, hsum⟩ := ih (hs.countByte b (by omega)) (by omega)
    refine ⟨hinv, ?_⟩
    have : (s.countBytes (b :: input)).total.toNat = s.total.toNat + 1 + input.length := htotal ▸ hsum
    omega

/-- A successful COUNT keeps the invariants of FT: it leaves EMPTY exactly if it counted a symbol (R42, R120). -/
theorem State.FreqInv.of_countBody {s u : State} (hs : s.FreqInv) (h : countBody s = .ok u) : u.FreqInv := by
  have hphase := countBody_phase h
  obtain ⟨-, htotal, rfl⟩ := countBody_ok h
  obtain ⟨hcounts, hempty⟩ := s.freqInv_iff.1 hs
  have hlen : s.inputBytes.length = s.len.toNat := s.ibufBytes_length 0 _
  obtain ⟨hinv, hsum⟩ := hcounts.countBytes s.inputBytes (by omega)
  have hcollect : (s.countBytes s.inputBytes).collectIfAny.CountsInv :=
    ⟨hinv.nsym_eq, hinv.total_eq, hinv.rank_lt, hinv.rank_hit⟩
  refine (State.freqInv_iff _).2 ⟨hcollect, ?_⟩
  rw [hphase, State.collectIfAny_nsym]
  split
  · next hz =>
    have hsz : s.total = 0 := by
      rw [hinv.nsym_eq_zero_iff.1 hz] at hsum
      exact BitVec.eq_of_toNat_eq (Nat.add_eq_zero_iff.1 hsum.symm).1
    exact iff_of_true (hempty.2 (hcounts.nsym_eq_zero_iff.2 hsz)) hz
  · next hz => exact iff_of_false (by decide) hz

/-! ## What leaves the tables as they are -/

namespace State.SameTables

theorem trans {s t u : State} (h : t.SameTables s) (h' : u.SameTables t) : u.SameTables s :=
  ⟨h'.params.trans h.params, h'.ft.trans h.ft, h'.nsym.trans h.nsym, h'.total.trans h.total, h'.phase.trans h.phase,
    h'.node.trans h.node, h'.nnodes.trans h.nnodes, h'.root.trans h.root, h'.ct.trans h.ct⟩

theorem takeEvent (s : State) : s.takeEvent.SameTables s := ⟨rfl, rfl, rfl, rfl, rfl, rfl, rfl, rfl, rfl⟩

theorem succeed (s : State) : s.succeed.SameTables s := ⟨rfl, rfl, rfl, rfl, rfl, rfl, rfl, rfl, rfl⟩

theorem raiseError (s : State) (codec : Bool) (e : CmdError) : (s.raiseError codec e).SameTables s := by
  rw [State.raiseError_frame]
  exact ⟨rfl, rfl, rfl, rfl, rfl, rfl, rfl, rfl, rfl⟩

theorem hostAccess {a : BusAccess} {s t : State} (h : hostAccess a s = .next t) : t.SameTables s := by
  rw [hostAccess_frame h]
  exact ⟨rfl, rfl, rfl, rfl, rfl, rfl, rfl, rfl, rfl⟩

/-- Only CLEAR, COUNT and BUILD write the tables (R53). -/
theorem bodyOf {i : Instr} {s u : State} (hclear : i ≠ .clear) (hcount : i ≠ .count) (hbuild : i ≠ .build)
    (h : bodyOf i s = .ok u) : u.SameTables s := by
  cases i with
  | nop => cases h; exact ⟨rfl, rfl, rfl, rfl, rfl, rfl, rfl, rfl, rfl⟩
  | clear => exact absurd rfl hclear
  | count => exact absurd rfl hcount
  | build => exact absurd rfl hbuild
  | encode fmt =>
    obtain ⟨bits, -, rfl⟩ := encodeBody_ok h
    exact ⟨rfl, rfl, rfl, rfl, rfl, rfl, rfl, rfl, rfl⟩
  | decode fmt =>
    obtain ⟨w, -, rfl⟩ := decodeBody_ok h
    exact ⟨rfl, rfl, rfl, rfl, rfl, rfl, rfl, rfl, rfl⟩
  | travStart => cases h; exact ⟨rfl, rfl, rfl, rfl, rfl, rfl, rfl, rfl, rfl⟩
  | travNext =>
    rw [travNextBody_frame h]
    exact ⟨rfl, rfl, rfl, rfl, rfl, rfl, rfl, rfl, rfl⟩
  | query sym => cases h; exact ⟨rfl, rfl, rfl, rfl, rfl, rfl, rfl, rfl, rfl⟩

end State.SameTables

/-- COUNT passes the phase check unless the tree is built (R108). -/
theorem phase_of_count_allowed {p : Phase} {w : Word} (h : phaseCheck .count p w = none) : p ≠ .built := by
  rintro rfl
  cases h

/-- BUILD passes the phase check in COLLECT only (R108). -/
theorem phase_of_build_allowed {p : Phase} {w : Word} (h : phaseCheck .build p w = none) : p = .collect := by
  cases p
  · cases h
  · rfl
  · cases h

/-- What a command does to the tables: nothing, or what a successful CLEAR, COUNT or BUILD does, which are the only
commands that write them. -/
theorem exec_tables {i : Instr} {s t : State} (h : exec i s = .next t) :
    t.SameTables s ∨
    ∃ u, t = u.succeed ∧ t.SameTables u ∧
      ((i = .clear ∧ clearBody s = .ok u) ∨ (i = .count ∧ s.phase ≠ .built ∧ countBody s = .ok u) ∨
        (i = .build ∧ s.phase = .collect ∧ buildBody s = .ok u)) := by
  rcases exec_cases h with ⟨e, -, rfl⟩ | ⟨e, -, -, rfl⟩ | ⟨u, hp, hu, rfl⟩
  · exact .inl (.raiseError s _ e)
  · exact .inl (.raiseError s _ e)
  by_cases hclear : i = .clear
  · subst hclear
    exact .inr ⟨u, rfl, .succeed u, .inl ⟨rfl, hu⟩⟩
  by_cases hcount : i = .count
  · subst hcount
    exact .inr ⟨u, rfl, .succeed u, .inr (.inl ⟨rfl, phase_of_count_allowed hp, hu⟩)⟩
  by_cases hbuild : i = .build
  · subst hbuild
    exact .inr ⟨u, rfl, .succeed u, .inr (.inr ⟨rfl, phase_of_build_allowed hp, hu⟩)⟩
  · exact .inl ((State.SameTables.bodyOf hclear hcount hbuild hu).trans (.succeed u))

/-! ## Every step keeps the invariants of FT -/

/-- An empty frequency table in phase EMPTY meets R42. -/
theorem State.FreqInv.of_cleared {s : State} (hft : s.ft = Vector.replicate 256 FreqEntry.absent) (hn : s.nsym = 0)
    (ht : s.total = 0) (hp : s.phase = .empty) : s.FreqInv := by
  have hcount : ∀ sym, (s.ftAt sym).count = 0 := by simp [State.ftAt, hft, FreqEntry.absent]
  have habsent : ∀ sym, s.present sym = false := by simp [State.present, hcount]
  exact
    { nsym_eq := by simp [hn, State.presentSyms, List.filter_eq_nil_iff.2, habsent]
      total_eq := by simp [ht, hcount]
      rank_lt := fun sym h => absurd h (by simp [habsent])
      rank_hit := fun r h => absurd h (by simp [hn])
      empty_iff := iff_of_true hp hn }

theorem State.FreqInv.hardReset (s : State) : s.hardReset.FreqInv := .of_cleared rfl rfl rfl rfl

theorem State.FreqInv.of_clearBody {s u : State} (h : clearBody s = .ok u) : u.FreqInv := by
  cases h
  exact .of_cleared rfl rfl rfl rfl

/-- BUILD leaves FT as it was and moves from COLLECT to BUILT (R130). -/
theorem State.FreqInv.of_buildBody {s u : State} (hs : s.FreqInv) (hphase : s.phase = .collect)
    (h : buildBody s = .ok u) : u.FreqInv := by
  cases h
  have hn : s.nsym ≠ 0 := fun hz => absurd (hphase.symm.trans (hs.empty_iff.2 hz)) (by decide)
  exact ⟨hs.nsym_eq, hs.total_eq, hs.rank_lt, hs.rank_hit, iff_of_false nofun hn⟩

theorem exec_keeps_freqInv {i : Instr} {s t : State} (hs : s.FreqInv) (h : exec i s = .next t) : t.FreqInv := by
  rcases exec_tables h with hsame | ⟨u, -, hsame, ⟨-, hu⟩ | ⟨-, -, hu⟩ | ⟨-, hphase, hu⟩⟩
  · exact hsame.freqInv hs
  · exact hsame.freqInv (.of_clearBody hu)
  · exact hsame.freqInv (hs.of_countBody hu)
  · exact hsame.freqInv (hs.of_buildBody hphase hu)

/-- Settles O59: only CLEAR, COUNT, BUILD and reset write FT or the phase, and each keeps R42; COUNT's total check keeps
every count and the total from overflowing. -/
theorem stepKeepsFreqInv : Obligations.StepKeepsFreqInv := fun _ _ hs hstep =>
  step_keeps (P := State.FreqInv) (fun u hu => (State.SameTables.takeEvent u).freqInv hu)
    (fun _ _ _ hu h => (State.SameTables.hostAccess h).freqInv hu) (fun _ _ _ hu h => exec_keeps_freqInv hu h)
    (fun u _ hu => (State.SameTables.raiseError u _ _).freqInv hu) (fun u _ => .hardReset u) hs hstep

/-! ## The leaves of a tree -/

/-- The ranks of the present symbols are the numbers below NSYM, each once (R42). -/
theorem State.FreqInv.ranks_perm {s : State} (hs : s.FreqInv) :
    (List.range s.nsym.toNat).Perm (s.presentSyms.map fun sym => (s.ftAt sym).rank.toNat) := by
  have hsub : List.range s.nsym.toNat ⊆ s.presentSyms.map fun sym => (s.ftAt sym).rank.toNat := by
    intro r hr
    obtain ⟨sym, hp, hrank⟩ := hs.rank_hit r (List.mem_range.1 hr)
    exact List.mem_map.2 ⟨sym, (s.mem_presentSyms sym).2 hp, hrank⟩
  refine (List.nodup_range.subperm hsub).perm_of_length_le ?_
  rw [List.length_map, List.length_range, hs.nsym_eq]

/-- Two present symbols have different ranks (R42). -/
theorem State.FreqInv.rank_inj {s : State} (hs : s.FreqInv) {x y : Sym} (hx : s.present x = true)
    (hy : s.present y = true) (h : (s.ftAt x).rank.toNat = (s.ftAt y).rank.toNat) : x = y :=
  List.inj_on_of_nodup_map (hs.ranks_perm.nodup_iff.1 List.nodup_range) ((s.mem_presentSyms x).2 hx)
    ((s.mem_presentSyms y).2 hy) h

/-- The symbol BUILD finds for the rank of a present symbol is that symbol (R130). -/
theorem State.FreqInv.symOfRank_rank {s : State} (hs : s.FreqInv) {x : Sym} (hx : s.present x = true) :
    s.symOfRank (s.ftAt x).rank.toNat = x := by
  unfold State.symOfRank
  cases hfind : allSyms.find? fun y => s.present y && (s.ftAt y).rank.toNat == (s.ftAt x).rank.toNat with
  | none => exact absurd (List.find?_eq_none.1 hfind x (mem_allSyms x)) (by simp [hx])
  | some y =>
    have hy := List.find?_some hfind
    simp only [Bool.and_eq_true, beq_iff_eq] at hy
    exact hs.rank_inj hy.1 hx hy.2

/-- The leaf of the rank of a present symbol holds that symbol and its count (R131). -/
theorem State.FreqInv.leafOfRank_rank {s : State} (hs : s.FreqInv) {x : Sym} (hx : s.present x = true) :
    s.leafOfRank (s.ftAt x).rank.toNat =
      { kind := .leaf, sym := x, freq := (s.ftAt x).count, left := 0, right := 0 } := by
  rw [State.leafOfRank, hs.symOfRank_rank hx]

/-- Absent symbols add nothing to the sum of the counts (R40). -/
theorem State.sum_counts_filter_present (s : State) (l : List Sym) :
    ((l.filter s.present).map fun x => (s.ftAt x).count.toNat).sum = (l.map fun x => (s.ftAt x).count.toNat).sum := by
  induction l with
  | nil => rfl
  | cons x l ih =>
    cases hx : s.present x
    · have hzero : (s.ftAt x).count.toNat = 0 := by simpa [State.present, ← BitVec.toNat_inj] using hx
      simp [hx, ih, hzero]
    · simp [hx, ih]

/-- The frequencies of the leaves add up to TOTAL (R42, R138). -/
theorem State.FreqInv.sum_leaves {s : State} (hs : s.FreqInv) :
    ((List.range s.nsym.toNat).map fun r => (s.leafOfRank r).freq.toNat).sum = s.total.toNat := by
  have hleaves : (s.presentSyms.map fun x => (s.leafOfRank (s.ftAt x).rank.toNat).freq.toNat) =
      s.presentSyms.map fun x => (s.ftAt x).count.toNat :=
    List.map_congr_left fun x hx => by rw [hs.leafOfRank_rank ((s.mem_presentSyms x).1 hx)]
  rw [(hs.ranks_perm.map _).sum_eq, List.map_map, hs.total_eq, ← s.sum_counts_filter_present]
  exact congrArg List.sum hleaves

/-- After the leaves are stored, node `r` below `n` is the leaf of rank `r` (R131). -/
theorem State.nodeAt_placeLeaves (s : State) {n r : Nat} (hn : n ≤ 511) (hr : r < n) :
    nodeAt (s.placeLeaves n) r = s.leafOfRank r := by
  induction n with
  | zero => omega
  | succ n ih =>
    have hstep : s.placeLeaves (n + 1) = setNode (s.placeLeaves n) n (s.leafOfRank n) := by
      rw [State.placeLeaves, List.range_succ, List.foldl_append]
      rfl
    rw [hstep]
    by_cases h : r = n
    · subst h
      exact nodeAt_setNode_same _ _ (by omega)
    · rw [nodeAt_setNode_ne _ _ h]
      exact ih (by omega) (by omega)

/-! ## The selection of the least key -/

theorem leastKey_mem {nodes : Arena} {w : List Nat} {a : Nat} (h : leastKey nodes w = some a) : a ∈ w := by
  induction w generalizing a with
  | nil => cases h
  | cons i w ih =>
    unfold leastKey at h
    split at h
    · cases h; exact .head _
    · next j hj =>
      split at h <;> cases h
      · exact .tail _ (ih hj)
      · exact .head _

theorem leastKey_isSome {nodes : Arena} {w : List Nat} (h : w ≠ []) : ∃ a, leastKey nodes w = some a := by
  cases w with
  | nil => exact absurd rfl h
  | cons i w =>
    unfold leastKey
    split
    · exact ⟨_, rfl⟩
    · split <;> exact ⟨_, rfl⟩

/-- One pass of BUILD's loop on two or more waiting nodes: two different ones are taken and their merged node waits
(R132, R135). -/
theorem mergeLoop_succ {merges : Nat} {nodes : Arena} {w : List Nat} {next : Nat} (hw : 2 ≤ w.length) :
    ∃ a b, leastKey nodes w = some a ∧ leastKey nodes (w.erase a) = some b ∧
      mergeLoop (merges + 1) nodes w next =
        mergeLoop merges (setNode nodes next (mergedNode nodes a b)) (((w.erase a).erase b) ++ [next]) (next + 1) := by
  obtain ⟨a, ha⟩ := leastKey_isSome (nodes := nodes) (List.ne_nil_of_length_pos (by omega : 0 < w.length))
  have hlen : (w.erase a).length = w.length - 1 := List.length_erase_of_mem (leastKey_mem ha)
  obtain ⟨b, hb⟩ := leastKey_isSome (nodes := nodes) (List.ne_nil_of_length_pos (by omega : 0 < (w.erase a).length))
  exact ⟨a, b, ha, hb, by simp [mergeLoop, ha, hb]⟩

/-- With one waiting node left the loop is over (R130). -/
theorem mergeLoop_singleton (merges : Nat) (nodes : Arena) (x next : Nat) :
    mergeLoop merges nodes [x] next = (nodes, [x]) := by
  cases merges <;> simp [mergeLoop, leastKey]

/-! ## The nodes that have a node as a child -/

/-- Is node `p` an INTERNAL node with `id` as a child? -/
def hasChild (nodes : Arena) (id p : Nat) : Bool :=
  (nodeAt nodes p).kind == .internal && ((nodeAt nodes p).left.toNat == id || (nodeAt nodes p).right.toNat == id)

/-- The INTERNAL nodes below `count` that have `id` as a child. -/
def parentsIn (nodes : Arena) (count id : Nat) : List Nat := (List.range count).filter (hasChild nodes id)

theorem State.parentsOf_eq (s : State) (id : Nat) : s.parentsOf id = parentsIn s.node s.nnodes.toNat id := rfl

theorem mem_parentsIn {nodes : Arena} {count id p : Nat} :
    p ∈ parentsIn nodes count id ↔
      p < count ∧ (nodeAt nodes p).kind = .internal ∧
        ((nodeAt nodes p).left.toNat = id ∨ (nodeAt nodes p).right.toNat = id) := by
  simp [parentsIn, hasChild]

theorem mergedNode_left (nodes : Arena) {a : Nat} (b : Nat) (ha : a < 512) : (mergedNode nodes a b).left.toNat = a :=
  Nat.mod_eq_of_lt ha

theorem mergedNode_right (nodes : Arena) (a : Nat) {b : Nat} (hb : b < 512) :
    (mergedNode nodes a b).right.toNat = b :=
  Nat.mod_eq_of_lt hb

/-- The new node is one more parent of its two children, and of no other node. -/
theorem parentsIn_merge (nodes : Arena) {next a b : Nat} (hnext : next < 511) (ha : a < next) (hb : b < next)
    (id : Nat) :
    parentsIn (setNode nodes next (mergedNode nodes a b)) (next + 1) id =
      parentsIn nodes next id ++ if a = id ∨ b = id then [next] else [] := by
  have hold : (List.range next).filter (hasChild (setNode nodes next (mergedNode nodes a b)) id) =
      parentsIn nodes next id :=
    List.filter_congr fun p hp => by
      rw [hasChild, nodeAt_setNode_ne _ _ (Nat.ne_of_lt (List.mem_range.1 hp)), hasChild]
  have hnew : hasChild (setNode nodes next (mergedNode nodes a b)) id next = decide (a = id ∨ b = id) := by
    rw [hasChild, nodeAt_setNode_same _ _ hnext, mergedNode_left _ _ (by omega), mergedNode_right _ _ (by omega)]
    simp [mergedNode, beq_eq_decide]
  rw [parentsIn, List.range_succ, List.filter_append, hold, List.filter_singleton, hnew, Bool.cond_decide]

/-! ## BUILD's loop -/

/-- What R45 says of an INTERNAL node: two different older children, SYM 0, and FREQ their sum. -/
structure InnerNode (nodes : Arena) (id : Nat) : Prop where
  left_lt : (nodeAt nodes id).left.toNat < id
  right_lt : (nodeAt nodes id).right.toNat < id
  left_ne_right : (nodeAt nodes id).left ≠ (nodeAt nodes id).right
  sym_zero : (nodeAt nodes id).sym = 0
  freq_sum : (nodeAt nodes id).freq.toNat =
    (nodeAt nodes (nodeAt nodes id).left.toNat).freq.toNat + (nodeAt nodes (nodeAt nodes id).right.toNat).freq.toNat

/-- A node stored later leaves an INTERNAL node as it was. -/
theorem InnerNode.setNode {nodes : Arena} {id next : Nat} (h : InnerNode nodes id) (hid : id < next) (v : Node) :
    InnerNode (setNode nodes next v) id := by
  obtain ⟨hleft, hright, hne, hsym, hfreq⟩ := h
  have hkeep : ∀ x ≤ id, nodeAt (Machine.setNode nodes next v) x = nodeAt nodes x :=
    fun x hx => nodeAt_setNode_ne nodes v (by omega)
  constructor <;> rw [hkeep id le_rfl]
  · exact hleft
  · exact hright
  · exact hne
  · exact hsym
  · rw [hkeep _ hleft.le, hkeep _ hright.le]
    exact hfreq

/-- The merged node of two different older nodes is as R45 says, if their frequencies add up to a word (R135, R138). -/
theorem InnerNode.merged (nodes : Arena) {next a b : Nat} (hnext : next < 511) (ha : a < next) (hb : b < next)
    (hab : a ≠ b) (hfreq : (nodeAt nodes a).freq.toNat + (nodeAt nodes b).freq.toNat < 2 ^ 32) :
    InnerNode (Machine.setNode nodes next (mergedNode nodes a b)) next := by
  have hl := mergedNode_left nodes b (by omega : a < 512)
  have hr := mergedNode_right nodes a (by omega : b < 512)
  constructor <;> rw [nodeAt_setNode_same _ _ hnext]
  · rwa [hl]
  · rwa [hr]
  · intro h
    rw [← BitVec.toNat_inj, hl, hr] at h
    exact hab h
  · rfl
  · rw [hl, hr, nodeAt_setNode_ne _ _ (by omega), nodeAt_setNode_ne _ _ (by omega)]
    exact BitVec.toNat_add_of_lt hfreq

/-- BUILD's loop on a corpus with table `s`: nodes below `next` are made, those in `w` wait to be merged, each of the
others has one parent, and the frequencies of the waiting ones add up to TOTAL (R132, R138). -/
structure MergeInv (s : State) (nodes : Arena) (w : List Nat) (next : Nat) : Prop where
  nodup : w.Nodup
  waiting_lt : ∀ x ∈ w, x < next
  nsym_le : s.nsym.toNat ≤ next
  made : next + w.length = 2 * s.nsym.toNat
  newest_last : w.getLast? = some (next - 1)
  leaf : ∀ r < s.nsym.toNat, nodeAt nodes r = s.leafOfRank r
  internal : ∀ id < next, s.nsym.toNat ≤ id → (nodeAt nodes id).kind = .internal ∧ InnerNode nodes id
  parents : ∀ id < next, (parentsIn nodes next id).length = if id ∈ w then 0 else 1
  freq_sum : (w.map fun x => (nodeAt nodes x).freq.toNat).sum = s.total.toNat

/-- Before the first merge every leaf waits (R131, R132). -/
theorem MergeInv.of_leaves {s : State} (hs : s.FreqInv) (hn : s.nsym ≠ 0) :
    MergeInv s (s.placeLeaves s.nsym.toNat) (List.range s.nsym.toNat) s.nsym.toNat := by
  have hle : s.nsym.toNat ≤ 511 := (State.CountsInv.nsym_le (s.freqInv_iff.1 hs).1).trans (by decide)
  have hpos : 0 < s.nsym.toNat := Nat.pos_of_ne_zero fun h => hn (BitVec.eq_of_toNat_eq h)
  have hleaf : ∀ r < s.nsym.toNat, nodeAt (s.placeLeaves s.nsym.toNat) r = s.leafOfRank r :=
    fun r hr => s.nodeAt_placeLeaves hle hr
  refine
    { nodup := List.nodup_range
      waiting_lt := fun x hx => List.mem_range.1 hx
      nsym_le := le_rfl
      made := by rw [List.length_range]; omega
      newest_last := by rw [List.getLast?_range, if_neg hpos.ne']
      leaf := hleaf
      internal := fun id hlt hle => absurd hle (by omega)
      parents := fun id hid => ?_
      freq_sum := ?_ }
  · rw [if_pos (List.mem_range.2 hid), List.length_eq_zero_iff, List.eq_nil_iff_forall_not_mem]
    intro p hp
    obtain ⟨hlt, hkind, -⟩ := mem_parentsIn.1 hp
    rw [hleaf p hlt] at hkind
    cases hkind
  · rw [← hs.sum_leaves]
    exact congrArg List.sum (List.map_congr_left fun r hr => by rw [hleaf r (List.mem_range.1 hr)])

/-- A node that is not made yet is no node's child. -/
theorem MergeInv.parentsIn_next {s : State} {nodes : Arena} {w : List Nat} {next : Nat} (h : MergeInv s nodes w next) :
    parentsIn nodes next next = [] := by
  refine List.eq_nil_iff_forall_not_mem.2 fun p hp => ?_
  obtain ⟨hlt, hkind, hchild⟩ := mem_parentsIn.1 hp
  have hle : s.nsym.toNat ≤ p := by
    by_contra hleaf
    rw [h.leaf p (not_le.1 hleaf)] at hkind
    cases hkind
  obtain ⟨-, hinner⟩ := h.internal p hlt hle
  have := hinner.left_lt
  have := hinner.right_lt
  omega

section
variable {s : State} {nodes : Arena} {w rest : List Nat} {next a b : Nat}

/-- What is known of two waiting nodes and the rest: all different, all made, room for one more node, and frequencies
that add up to TOTAL (R132, R138). -/
theorem MergeInv.pair (h : MergeInv s nodes w next) (hn : s.nsym.toNat ≤ 256) (hperm : w.Perm (a :: b :: rest)) :
    (a < next ∧ b < next ∧ ∀ x ∈ rest, x < next) ∧ (a ≠ b ∧ a ∉ rest ∧ b ∉ rest ∧ rest.Nodup) ∧ next < 511 ∧
    (nodeAt nodes a).freq.toNat + (nodeAt nodes b).freq.toNat + (rest.map fun x => (nodeAt nodes x).freq.toNat).sum =
      s.total.toNat := by
  have hnodup := hperm.nodup_iff.1 h.nodup
  have hlt : ∀ x ∈ a :: b :: rest, x < next := fun x hx => h.waiting_lt x (hperm.mem_iff.2 hx)
  have hlen : w.length = rest.length + 2 := hperm.length_eq
  have hmade := h.made
  have hsum := h.freq_sum
  rw [(hperm.map _).sum_eq, List.map_cons, List.map_cons, List.sum_cons, List.sum_cons, ← Nat.add_assoc] at hsum
  simp only [List.nodup_cons, List.mem_cons, not_or] at hnodup
  obtain ⟨⟨hab, har⟩, hbr, hrest⟩ := hnodup
  exact ⟨⟨hlt a (by simp), hlt b (by simp), fun x hx => hlt x (by simp [hx])⟩, ⟨hab, har, hbr, hrest⟩, by omega, hsum⟩

/-- After a merge each node but the waiting ones has one parent: the two merged nodes got theirs (R45). -/
theorem MergeInv.parents_merge (h : MergeInv s nodes w next) (hn : s.nsym.toNat ≤ 256)
    (hperm : w.Perm (a :: b :: rest)) {id : Nat} (hid : id < next + 1) :
    (parentsIn (setNode nodes next (mergedNode nodes a b)) (next + 1) id).length =
      if id ∈ rest ++ [next] then 0 else 1 := by
  obtain ⟨⟨ha, hb, -⟩, ⟨-, har, hbr, -⟩, hnext, -⟩ := h.pair hn hperm
  rw [parentsIn_merge nodes hnext ha hb, List.length_append]
  by_cases hnew : id = next
  · subst hnew
    rw [h.parentsIn_next, if_neg (by omega), if_pos (by simp)]
    rfl
  · rw [h.parents id (by omega)]
    have hwaits : id ∈ rest ++ [next] ↔ id ∈ rest := by simp [hnew]
    have hwaited : id ∈ w ↔ id = a ∨ id = b ∨ id ∈ rest := by simp [hperm.mem_iff]
    simp only [hwaits, hwaited]
    by_cases hia : id = a
    · subst hia; simp [har]
    by_cases hib : id = b
    · subst hib; simp [hbr]
    · simp [hia, hib, Ne.symm hia, Ne.symm hib]

/-- Merging two waiting nodes keeps the loop's invariant, whichever two they are (R132, R135). -/
theorem MergeInv.merge (h : MergeInv s nodes w next) (hn : s.nsym.toNat ≤ 256) (hperm : w.Perm (a :: b :: rest)) :
    MergeInv s (setNode nodes next (mergedNode nodes a b)) (rest ++ [next]) (next + 1) := by
  obtain ⟨⟨ha, hb, hrest⟩, ⟨hab, -, -, hnodup⟩, hnext, hsum⟩ := h.pair hn hperm
  have htotal := s.total.isLt
  have hlen : w.length = rest.length + 2 := hperm.length_eq
  have hmade := h.made
  have hkeep : ∀ x < next, nodeAt (setNode nodes next (mergedNode nodes a b)) x = nodeAt nodes x :=
    fun x hx => nodeAt_setNode_ne nodes _ hx.ne
  have hnew := nodeAt_setNode_same nodes (mergedNode nodes a b) hnext
  refine
    { nodup := ?_
      waiting_lt := ?_
      nsym_le := h.nsym_le.trans (Nat.le_succ _)
      made := by rw [List.length_append, List.length_singleton]; omega
      newest_last := by simp
      leaf := fun r hr => by rw [hkeep r (hr.trans_le h.nsym_le), h.leaf r hr]
      internal := fun id hid hle => ?_
      parents := fun id hid => h.parents_merge hn hperm hid
      freq_sum := ?_ }
  · rw [List.nodup_append]
    exact ⟨hnodup, List.nodup_singleton _, fun x hx y hy => List.mem_singleton.1 hy ▸ (hrest x hx).ne⟩
  · intro x hx
    rcases List.mem_append.1 hx with hx | hx
    · exact (hrest x hx).trans (Nat.lt_succ_self _)
    · exact List.mem_singleton.1 hx ▸ Nat.lt_succ_self _
  · by_cases heq : id = next
    · subst heq
      exact ⟨by rw [hnew]; rfl, .merged nodes hnext ha hb hab (by omega)⟩
    · obtain ⟨hkind, hold⟩ := h.internal id (by omega) hle
      exact ⟨by rw [hkeep id (by omega), hkind], hold.setNode (by omega) _⟩
  · have hold : rest.map (fun x => (nodeAt (setNode nodes next (mergedNode nodes a b)) x).freq.toNat) =
        rest.map fun x => (nodeAt nodes x).freq.toNat :=
      List.map_congr_left fun x hx => by rw [hkeep x (hrest x hx)]
    have hfreq : (mergedNode nodes a b).freq.toNat = (nodeAt nodes a).freq.toNat + (nodeAt nodes b).freq.toNat :=
      BitVec.toNat_add_of_lt (by omega)
    rw [List.map_append, List.sum_append, hold, List.map_singleton, List.sum_singleton, hnew, hfreq, ← hsum]
    omega

/-- A loop with at most one waiting node is over: the node is the newest, 2n − 2 (R130, R133). -/
theorem MergeInv.eq_root (h : MergeInv s nodes w next) (hw : w.length ≤ 1) :
    w = [2 * s.nsym.toNat - 2] ∧ next = 2 * s.nsym.toNat - 1 := by
  have hlast := h.newest_last
  have hmade := h.made
  match w, hw with
  | [], _ => cases hlast
  | [x], _ =>
    have hx : x = next - 1 := by simpa using hlast
    rw [List.length_singleton] at hmade
    exact ⟨by rw [hx]; congr 1; omega, by omega⟩

/-- BUILD's loop ends with one waiting node, the root (R130, R132). -/
theorem MergeInv.mergeLoop {merges : Nat} (h : MergeInv s nodes w next) (hn : s.nsym.toNat ≤ 256)
    (hmerges : w.length ≤ merges + 1) :
    ∃ made, mergeLoop merges nodes w next = (made, [2 * s.nsym.toNat - 2]) ∧
      MergeInv s made [2 * s.nsym.toNat - 2] (2 * s.nsym.toNat - 1) := by
  induction merges generalizing nodes w next with
  | zero =>
    obtain ⟨rfl, rfl⟩ := h.eq_root hmerges
    exact ⟨nodes, rfl, h⟩
  | succ merges ih =>
    by_cases hw : w.length ≤ 1
    · obtain ⟨rfl, rfl⟩ := h.eq_root hw
      exact ⟨nodes, mergeLoop_singleton _ _ _ _, h⟩
    · obtain ⟨a, b, ha, hb, hstep⟩ := mergeLoop_succ (merges := merges) (nodes := nodes) (next := next) (not_le.1 hw)
      have hperm : w.Perm (a :: b :: (w.erase a).erase b) :=
        (List.perm_cons_erase (leastKey_mem ha)).trans ((List.perm_cons_erase (leastKey_mem hb)).cons a)
      have hlen := hperm.length_eq
      rw [hstep]
      refine ih (h.merge hn hperm) ?_
      simp only [List.length_cons, List.length_append, List.length_nil] at hlen ⊢
      omega

end

/-! ## The tree BUILD leaves -/

/-- The state BUILD's body leaves (R130). -/
def State.afterBuild (s : State) : State :=
  { s with node := s.builtTree.nodes, root := s.builtTree.root, nnodes := s.builtTree.nnodes,
           ct := generateCodes s.builtTree.nodes s.builtTree.root, tpos := 0, phase := .built }

theorem buildBody_eq (s : State) : buildBody s = .ok s.afterBuild := rfl

theorem State.FreqInv.nsym_le {s : State} (hs : s.FreqInv) : s.nsym.toNat ≤ 256 :=
  (s.freqInv_iff.1 hs).1.nsym_le

/-- In phase COLLECT a symbol was counted (R42). -/
theorem State.FreqInv.nsym_pos {s : State} (hs : s.FreqInv) (hphase : s.phase ≠ .empty) : 0 < s.nsym.toNat :=
  Nat.pos_of_ne_zero fun h => hphase (hs.empty_iff.2 (BitVec.eq_of_toNat_eq h))

/-- The tree of two or more symbols is as R45 says: what BUILD's loop ends with. -/
theorem State.FreqInv.mergedTree_shape {s : State} (hs : s.FreqInv) (hn : 2 ≤ s.nsym.toNat) :
    s.afterBuild.TreeShape := by
  have hle := hs.nsym_le
  have hone : s.nsym ≠ 1 := by rintro h; rw [h] at hn; exact absurd hn (by decide)
  have hzero : s.nsym ≠ 0 := by rintro h; rw [h] at hn; exact absurd hn (by decide)
  obtain ⟨made, hloop, hinv⟩ := (MergeInv.of_leaves hs hzero).mergeLoop (merges := s.nsym.toNat) hle (by simp)
  have htree : s.builtTree = ⟨made, BitVec.ofNat 9 (2 * s.nsym.toNat - 2), BitVec.ofNat 10 (2 * s.nsym.toNat - 1)⟩ := by
    rw [State.builtTree, if_neg hone, State.mergedTree, hloop]
    rfl
  have hnode : s.afterBuild.node = made := congrArg Tree.nodes htree
  have hroot : s.afterBuild.root.toNat = 2 * s.nsym.toNat - 2 := by
    rw [State.afterBuild, htree]
    exact Nat.mod_eq_of_lt (by omega)
  have hnnodes : s.afterBuild.nnodes.toNat = 2 * s.nsym.toNat - 1 := by
    rw [State.afterBuild, htree]
    exact Nat.mod_eq_of_lt (by omega)
  exact
    { one := fun h => absurd h hone
      many := fun _ => ⟨hnnodes, hroot⟩
      internal := fun _ id hid hge => by
        rw [hnode]
        exact (hinv.internal id (hnnodes ▸ hid) hge).1
      leaf := fun sym hp => by
        rw [hnode]
        exact (hinv.leaf _ (hs.rank_lt sym hp)).trans (hs.leafOfRank_rank hp)
      children := fun id hid hkind => by
        rw [hnode] at hkind ⊢
        have hge : s.nsym.toNat ≤ id := by
          by_contra hlt
          rw [hinv.leaf id (not_le.1 hlt)] at hkind
          cases hkind
        obtain ⟨-, hleft, hright, hne, hsym, hfreq⟩ := hinv.internal id (hnnodes ▸ hid) hge
        exact ⟨hleft, hright, hne, hsym, hfreq⟩
      oneParent := fun id hid hne => by
        rw [hroot] at hne
        rw [State.parentsOf_eq, hnode, hnnodes, hinv.parents id (hnnodes ▸ hid), if_neg (by simpa using hne)]
      rootFreq := by
        rw [hnode, hroot]
        exact BitVec.eq_of_toNat_eq ((by simpa using hinv.freq_sum : _ = s.total.toNat)) }

/-- The arena of a one-symbol corpus before its root is stored: the leaf beside VOID (R136). -/
def State.leafBesideVoid (s : State) : Arena := setNode (s.placeLeaves 1) 1 voidNode

theorem State.leafBesideVoid_leaf (s : State) : nodeAt s.leafBesideVoid 0 = s.leafOfRank 0 := by
  rw [State.leafBesideVoid, nodeAt_setNode_ne _ _ (by decide), s.nodeAt_placeLeaves (by decide) (by decide)]

theorem State.leafBesideVoid_void (s : State) : nodeAt s.leafBesideVoid 1 = voidNode :=
  nodeAt_setNode_same _ _ (by decide)

theorem State.oneSymbolTree_nodes (s : State) :
    s.oneSymbolTree.nodes = setNode s.leafBesideVoid 2 (mergedNode s.leafBesideVoid 0 1) := rfl

theorem State.oneSymbolTree_leaf (s : State) : nodeAt s.oneSymbolTree.nodes 0 = s.leafOfRank 0 :=
  (nodeAt_setNode_ne _ _ (by decide)).trans s.leafBesideVoid_leaf

theorem State.oneSymbolTree_void (s : State) : nodeAt s.oneSymbolTree.nodes 1 = voidNode :=
  (nodeAt_setNode_ne _ _ (by decide)).trans s.leafBesideVoid_void

theorem State.oneSymbolTree_root (s : State) :
    nodeAt s.oneSymbolTree.nodes 2 =
      { kind := .internal, sym := 0, freq := (s.leafOfRank 0).freq, left := 0, right := 1 } := by
  rw [State.oneSymbolTree_nodes, nodeAt_setNode_same _ _ (by decide), mergedNode, s.leafBesideVoid_leaf,
    s.leafBesideVoid_void]
  congr 1
  exact BitVec.add_zero _

theorem State.oneSymbolTree_inner (s : State) : InnerNode s.oneSymbolTree.nodes 2 := by
  have hfreq : (nodeAt s.leafBesideVoid 0).freq.toNat + (nodeAt s.leafBesideVoid 1).freq.toNat < 2 ^ 32 := by
    rw [s.leafBesideVoid_void]
    exact (nodeAt s.leafBesideVoid 0).freq.isLt
  exact .merged _ (by decide) (by decide) (by decide) (by decide) hfreq

/-- The root is the parent of the leaf and of VOID (R136). -/
theorem State.oneSymbolTree_parents (s : State) {id : Nat} (hid : id < 2) :
    parentsIn s.oneSymbolTree.nodes 3 id = [2] := by
  have hnone : parentsIn s.leafBesideVoid 2 id = [] := by
    refine List.eq_nil_iff_forall_not_mem.2 fun p hp => ?_
    obtain ⟨hlt, hkind, -⟩ := mem_parentsIn.1 hp
    obtain rfl | rfl : p = 0 ∨ p = 1 := by omega
    · rw [s.leafBesideVoid_leaf] at hkind; cases hkind
    · rw [s.leafBesideVoid_void] at hkind; cases hkind
  rw [State.oneSymbolTree_nodes, parentsIn_merge _ (by decide) (by decide) (by decide), hnone, List.nil_append,
    if_pos (by omega)]

/-- The tree of one symbol is as R45 and R136 say: the leaf beside VOID under the root. -/
theorem State.FreqInv.oneSymbolTree_shape {s : State} (hs : s.FreqInv) (hn : s.nsym = 1) : s.afterBuild.TreeShape := by
  have hone : s.nsym.toNat = 1 := by rw [hn]; rfl
  have hnotmany : ¬ 2 ≤ s.nsym.toNat := by omega
  have htree : s.builtTree = s.oneSymbolTree := if_pos hn
  have hnode : s.afterBuild.node = s.oneSymbolTree.nodes := congrArg Tree.nodes htree
  have hroot : s.afterBuild.root = 2 := congrArg Tree.root htree
  have hnnodes : s.afterBuild.nnodes = 3 := congrArg Tree.nnodes htree
  have htotal : (s.leafOfRank 0).freq = s.total := by
    have hsum := hs.sum_leaves
    rw [hone] at hsum
    exact BitVec.eq_of_toNat_eq (by simpa [List.range_succ] using hsum)
  have hrank : ∀ sym, s.present sym = true → (s.ftAt sym).rank.toNat = 0 := by
    intro sym hp
    have := hs.rank_lt sym hp
    omega
  exact
    { one := fun _ => by
        rw [hnode, s.oneSymbolTree_void, s.oneSymbolTree_root]
        exact ⟨hnnodes, hroot, rfl, rfl, rfl, rfl⟩
      many := fun h => absurd h hnotmany
      internal := fun h => absurd h hnotmany
      leaf := fun sym hp => by
        have hsym := hs.leafOfRank_rank hp
        rw [hrank sym hp] at hsym
        rw [hnode]
        exact (congrArg (nodeAt _) (hrank sym hp)).trans (s.oneSymbolTree_leaf.trans hsym)
      children := fun id hid hkind => by
        rw [hnode] at hkind ⊢
        rw [hnnodes] at hid
        change id < 3 at hid
        obtain rfl | rfl | rfl : id = 0 ∨ id = 1 ∨ id = 2 := by omega
        · rw [s.oneSymbolTree_leaf] at hkind; cases hkind
        · rw [s.oneSymbolTree_void] at hkind; cases hkind
        · obtain ⟨hleft, hright, hne, hsym, hfreq⟩ := s.oneSymbolTree_inner
          exact ⟨hleft, hright, hne, hsym, hfreq⟩
      oneParent := fun id hid hne => by
        rw [hnnodes] at hid
        rw [hroot] at hne
        change id < 3 at hid
        change id ≠ 2 at hne
        have hlow : id < 2 := by omega
        rw [State.parentsOf_eq, hnode, hnnodes]
        exact congrArg List.length (s.oneSymbolTree_parents hlow)
      rootFreq := by
        rw [hnode, hroot]
        exact (congrArg Node.freq s.oneSymbolTree_root).trans htotal }

/-- BUILD leaves the tree of R45 from every frequency table a run can leave (R130, R136). -/
theorem State.FreqInv.afterBuild_shape {s : State} (hs : s.FreqInv) (hphase : s.phase ≠ .empty) :
    s.afterBuild.TreeShape := by
  have hpos := hs.nsym_pos hphase
  by_cases hn : s.nsym = 1
  · exact hs.oneSymbolTree_shape hn
  · have hne : s.nsym.toNat ≠ 1 := fun h => hn (BitVec.eq_of_toNat_eq h)
    exact hs.mergedTree_shape (by omega)

/-! ## The codes `generate_codes` records -/

/-- Every recorded code is a path from the visited node to a leaf of its symbol (R150). -/
theorem codesFrom_sound {nodes : Arena} {levels id : Nat} {path p : List Bool} {sym : Sym}
    (h : (sym, p) ∈ codesFrom nodes levels id path) :
    ∃ q x, p = path ++ q ∧ follow nodes id q = some x ∧ (nodeAt nodes x).kind = .leaf ∧ (nodeAt nodes x).sym = sym := by
  induction levels generalizing id path with
  | zero => cases h
  | succ levels ih =>
    unfold codesFrom at h
    split at h
    · next hkind =>
      obtain ⟨rfl, rfl⟩ := Prod.mk.inj (List.mem_singleton.1 h)
      exact ⟨[], id, (List.append_nil _).symm, rfl, hkind, rfl⟩
    · next hkind =>
      rcases List.mem_append.1 h with h | h
      · obtain ⟨q, x, rfl, hf, hx⟩ := ih h
        exact ⟨false :: q, x, by simp, by rw [follow, if_pos hkind]; exact hf, hx⟩
      · obtain ⟨q, x, rfl, hf, hx⟩ := ih h
        exact ⟨true :: q, x, by simp, by rw [follow, if_pos hkind]; exact hf, hx⟩
    · cases h
    · cases h

/-- Every leaf at the end of a path shorter than the level bound gets its code (R150). -/
theorem codesFrom_complete {nodes : Arena} {levels id x : Nat} {path q : List Bool}
    (hf : follow nodes id q = some x) (hx : (nodeAt nodes x).kind = .leaf) (hq : q.length < levels) :
    ((nodeAt nodes x).sym, path ++ q) ∈ codesFrom nodes levels id path := by
  induction levels generalizing id path q with
  | zero => omega
  | succ levels ih =>
    unfold codesFrom
    cases q with
    | nil =>
      cases hf
      simp [hx]
    | cons b q =>
      rw [follow] at hf
      split at hf
      · next hkind =>
        rw [hkind]
        have hlen : q.length < levels := Nat.lt_of_succ_lt_succ hq
        cases b
        · exact List.mem_append_left _ (by simpa using ih (path := path ++ [false]) hf hlen)
        · exact List.mem_append_right _ (by simpa using ih (path := path ++ [true]) hf hlen)
      · cases hf

/-- A symbol's entry after a list of codes is recorded: its last code in the list, or the old entry if it has none. -/
theorem recordCodes_entry (codes : List (Sym × List Bool)) (ct : Vector CodeEntry 256) (sym : Sym) :
    (∃ p, (sym, p) ∈ codes ∧ (codes.foldl recordCode ct)[sym.toNat]'sym.isLt = { cbits := p }) ∨
    ((∀ p, (sym, p) ∉ codes) ∧ (codes.foldl recordCode ct)[sym.toNat]'sym.isLt = ct[sym.toNat]'sym.isLt) := by
  induction codes generalizing ct with
  | nil => exact .inr ⟨fun _ => List.not_mem_nil, rfl⟩
  | cons c codes ih =>
    obtain ⟨x, path⟩ := c
    rw [List.foldl_cons]
    rcases ih (recordCode ct (x, path)) with ⟨p, hp, he⟩ | ⟨hnone, he⟩
    · exact .inl ⟨p, .tail _ hp, he⟩
    · by_cases h : sym = x
      · subst h
        exact .inl ⟨path, .head _, by rw [he, recordCode_same]⟩
      · refine .inr ⟨fun p hp => ?_, by rw [he, recordCode_ne _ _ h]⟩
        rcases List.mem_cons.1 hp with hp | hp
        · exact h (Prod.mk.inj hp).1
        · exact hnone p hp

/-! ## Paths in a tree -/

section
variable {s : State}

/-- Node `r` below n is the leaf of the symbol of rank `r` (R131). -/
theorem State.TreeShape.leaf_of_lt (ht : s.TreeShape) (hs : s.FreqInv) {id : Nat} (hid : id < s.nsym.toNat) :
    ∃ sym, s.present sym = true ∧ (s.ftAt sym).rank.toNat = id ∧ (nodeAt s.node id).kind = .leaf ∧
      (nodeAt s.node id).sym = sym := by
  obtain ⟨sym, hp, rfl⟩ := hs.rank_hit id hid
  have hleaf := ht.leaf sym hp
  exact ⟨sym, hp, rfl, by rw [hleaf], by rw [hleaf]⟩

/-- An INTERNAL node's id is at least n (R133). -/
theorem State.TreeShape.nsym_le_of_internal (ht : s.TreeShape) (hs : s.FreqInv) {id : Nat}
    (hkind : (nodeAt s.node id).kind = .internal) : s.nsym.toNat ≤ id := by
  by_contra hlt
  obtain ⟨-, -, -, hleaf, -⟩ := ht.leaf_of_lt hs (not_le.1 hlt)
  rw [hleaf] at hkind
  cases hkind

theorem State.FreqInv.nsym_cases (hs : s.FreqInv) (hphase : s.phase ≠ .empty) : s.nsym = 1 ∨ 2 ≤ s.nsym.toNat := by
  have hpos := hs.nsym_pos hphase
  by_cases hn : s.nsym.toNat = 1
  · exact .inl (BitVec.eq_of_toNat_eq hn)
  · exact .inr (by omega)

/-- The root is the last node, INTERNAL, and fewer than 255 ids above the least INTERNAL one (R45, R137). -/
theorem State.TreeShape.root_bounds (ht : s.TreeShape) (hs : s.FreqInv) (hphase : s.phase ≠ .empty) :
    s.nnodes.toNat = s.root.toNat + 1 ∧ (nodeAt s.node s.root.toNat).kind = .internal ∧
      s.root.toNat ≤ s.nsym.toNat + 254 := by
  rcases hs.nsym_cases hphase with hn | hn
  · obtain ⟨hnnodes, hroot, -, hkind, -⟩ := ht.one hn
    rw [hnnodes, hroot, hn]
    exact ⟨rfl, hkind, by decide⟩
  · obtain ⟨hnnodes, hroot⟩ := ht.many hn
    have hle := hs.nsym_le
    exact ⟨by omega, ht.internal hn _ (by omega) (by omega), by omega⟩

/-- A leaf in use is the leaf of a present symbol (R131). -/
theorem State.TreeShape.leaf_present (ht : s.TreeShape) (hs : s.FreqInv) (hphase : s.phase ≠ .empty) {id : Nat}
    (hid : id < s.nnodes.toNat) (hkind : (nodeAt s.node id).kind = .leaf) :
    s.present (nodeAt s.node id).sym = true ∧ (s.ftAt (nodeAt s.node id).sym).rank.toNat = id := by
  have hlt : id < s.nsym.toNat := by
    by_contra hge
    rcases hs.nsym_cases hphase with hn | hn
    · obtain ⟨hnnodes, -, hvoid, hroot, -⟩ := ht.one hn
      rw [hn] at hge
      rw [hnnodes] at hid
      change ¬ id < 1 at hge
      change id < 3 at hid
      obtain rfl | rfl : id = 1 ∨ id = 2 := by omega
      · rw [hvoid] at hkind; cases hkind
      · rw [hroot] at hkind; cases hkind
    · rw [ht.internal hn id hid (not_lt.1 hge)] at hkind
      cases hkind
  obtain ⟨sym, hp, hrank, -, rfl⟩ := ht.leaf_of_lt hs hlt
  exact ⟨hp, hrank⟩

/-- A path goes down to smaller ids, through INTERNAL nodes, whose ids are at least n (R133, R137). -/
theorem State.TreeShape.follow_bounds (ht : s.TreeShape) (hs : s.FreqInv) {id x : Nat} {q : List Bool}
    (hid : id < s.nnodes.toNat) (hf : follow s.node id q = some x) :
    x < s.nnodes.toNat ∧ q.length ≤ id + 1 - s.nsym.toNat := by
  induction q generalizing id with
  | nil => cases hf; exact ⟨hid, Nat.zero_le _⟩
  | cons b q ih =>
    rw [follow] at hf
    split at hf
    · next hkind =>
      have hge := ht.nsym_le_of_internal hs hkind
      obtain ⟨hleft, hright, -⟩ := ht.children id hid hkind
      have hchild : (if b then (nodeAt s.node id).right.toNat else (nodeAt s.node id).left.toNat) < id := by
        cases b
        · exact hleft
        · exact hright
      obtain ⟨hx, hlen⟩ := ih (hchild.trans hid) hf
      exact ⟨hx, by rw [List.length_cons]; omega⟩
    · cases hf

/-- A node in use other than the root is the child of an INTERNAL node of larger id (R45). -/
theorem State.TreeShape.parent_exists (ht : s.TreeShape) {id : Nat} (hid : id < s.nnodes.toNat)
    (hne : id ≠ s.root.toNat) :
    ∃ p b, p < s.nnodes.toNat ∧ id < p ∧ follow s.node p [b] = some id := by
  have hone := ht.oneParent id hid hne
  rw [State.parentsOf_eq] at hone
  obtain ⟨p, hp⟩ := List.exists_mem_of_length_pos (by omega : 0 < (parentsIn s.node s.nnodes.toNat id).length)
  obtain ⟨hlt, hkind, hchild⟩ := mem_parentsIn.1 hp
  obtain ⟨hleft, hright, -⟩ := ht.children p hlt hkind
  rcases hchild with rfl | rfl
  · exact ⟨p, false, hlt, hleft, by simp [follow, hkind]⟩
  · exact ⟨p, true, hlt, hright, by simp [follow, hkind]⟩

/-- Every node in use is at the end of a path from the root (R45). -/
theorem State.TreeShape.reached (ht : s.TreeShape) {id : Nat} (hid : id < s.nnodes.toNat) :
    ∃ q, follow s.node s.root.toNat q = some id := by
  by_cases hroot : id = s.root.toNat
  · exact ⟨[], congrArg some hroot.symm⟩
  · obtain ⟨p, b, hp, hlt, hstep⟩ := ht.parent_exists hid hroot
    obtain ⟨q, hq⟩ := ht.reached hp
    exact ⟨q ++ [b], by rw [follow_append, hq]; exact hstep⟩
termination_by s.nnodes.toNat - id

/-! ## The code table BUILD leaves -/

/-- An entry of a generated code table is a recorded code of its symbol, or absent if the symbol has none (R150). -/
theorem State.ctAt_of_generateCodes (hct : s.ct = generateCodes s.node s.root) (sym : Sym) :
    (∃ p, (sym, p) ∈ codesFrom s.node maxLevels s.root.toNat [] ∧ s.ctAt sym = { cbits := p }) ∨
    ((∀ p, (sym, p) ∉ codesFrom s.node maxLevels s.root.toNat []) ∧ s.ctAt sym = CodeEntry.absent) := by
  have hct' : s.ctAt sym = (generateCodes s.node s.root)[sym.toNat]'sym.isLt := by simp only [State.ctAt, hct]
  rw [hct', ← Vector.getElem_replicate (a := CodeEntry.absent) sym.isLt]
  exact recordCodes_entry _ _ sym

section
variable (ht : s.TreeShape) (hs : s.FreqInv) (hphase : s.phase ≠ .empty)
include ht hs hphase

theorem State.TreeShape.root_lt : s.root.toNat < s.nnodes.toNat := by
  obtain ⟨hnnodes, -⟩ := ht.root_bounds hs hphase
  omega

/-- A recorded code leads from ROOT to the leaf of a present symbol (R150). -/
theorem State.TreeShape.recorded_sound {sym : Sym} {p : List Bool}
    (h : (sym, p) ∈ codesFrom s.node maxLevels s.root.toNat []) :
    s.present sym = true ∧ follow s.node s.root.toNat p = some (s.ftAt sym).rank.toNat := by
  obtain ⟨q, x, hpq, hf, hkind, rfl⟩ := codesFrom_sound h
  obtain ⟨hx, -⟩ := ht.follow_bounds hs (ht.root_lt hs hphase) hf
  obtain ⟨hp, hrank⟩ := ht.leaf_present hs hphase hx hkind
  exact ⟨hp, by rw [hpq, List.nil_append, hf, hrank]⟩

/-- Every present symbol has a recorded code: its leaf is reached, by a path within the level bound (R150, R151). -/
theorem State.TreeShape.recorded_complete {sym : Sym} (hp : s.present sym = true) :
    ∃ p, (sym, p) ∈ codesFrom s.node maxLevels s.root.toNat [] := by
  obtain ⟨hnnodes, hkind, hbound⟩ := ht.root_bounds hs hphase
  have hge := ht.nsym_le_of_internal hs hkind
  have hrank := hs.rank_lt sym hp
  have hleaf := ht.leaf sym hp
  obtain ⟨q, hq⟩ := ht.reached (id := (s.ftAt sym).rank.toNat) (by omega)
  obtain ⟨-, hlen⟩ := ht.follow_bounds hs (ht.root_lt hs hphase) hq
  have hmem := codesFrom_complete (levels := maxLevels) (path := []) hq (by rw [hleaf]) (by rw [maxLevels]; omega)
  rw [hleaf] at hmem
  exact ⟨_, hmem⟩

/-- In a tree of R45 the codes `generate_codes` records are the paths from ROOT to the leaves, 1 to 255 bits long
(R150, R153, R137). -/
theorem State.TreeShape.codePaths (hct : s.ct = generateCodes s.node s.root) : s.CodePaths := by
  obtain ⟨-, hkind, hbound⟩ := ht.root_bounds hs hphase
  have hge := ht.nsym_le_of_internal hs hkind
  have hpath : ∀ sym, s.present sym = true →
      follow s.node s.root.toNat (s.ctAt sym).cbits = some (s.ftAt sym).rank.toNat := by
    intro sym hp
    obtain ⟨q, hq⟩ := ht.recorded_complete hs hphase hp
    rcases State.ctAt_of_generateCodes hct sym with ⟨p, hmem, he⟩ | ⟨hnone, -⟩
    · rw [he]
      exact (ht.recorded_sound hs hphase hmem).2
    · exact absurd hq (hnone q)
  refine ⟨hpath, fun sym hp => ⟨?_, ?_⟩, fun sym hp => ?_⟩
  · refine List.length_pos_of_ne_nil fun hnil => ?_
    have hf := hpath sym hp
    rw [hnil] at hf
    have hrank := hs.rank_lt sym hp
    have hroot := Option.some.inj hf
    omega
  · obtain ⟨-, hlen⟩ := ht.follow_bounds hs (ht.root_lt hs hphase) (hpath sym hp)
    rw [CodeEntry.length]
    omega
  · rcases State.ctAt_of_generateCodes hct sym with ⟨p, hmem, -⟩ | ⟨-, he⟩
    · rw [(ht.recorded_sound hs hphase hmem).1] at hp
      cases hp
    · exact he

end

end

/-! ## Every step keeps the invariants of the tables -/

theorem State.TablesInv.of_unbuilt {s u : State} (hs : s.TablesInv) (hp : u.params = s.params) (hu : u.FreqInv)
    (hphase : u.phase ≠ .built) : u.TablesInv :=
  ⟨hp ▸ hs.params, hu, fun h => absurd h hphase, fun h => absurd h hphase⟩

/-- BUILD leaves the tree of R45 and the code table of its paths (R130, R150). -/
theorem State.TablesInv.afterBuild {s : State} (hs : s.TablesInv) (hphase : s.phase = .collect) :
    s.afterBuild.TablesInv := by
  have hfreq := hs.freq.of_buildBody hphase (buildBody_eq s)
  have hshape := hs.freq.afterBuild_shape (by rw [hphase]; decide)
  exact ⟨hs.params, hfreq, fun _ => hshape, fun _ => hshape.codePaths hfreq nofun rfl⟩

theorem exec_keeps_tablesInv {i : Instr} {s t : State} (hs : s.TablesInv) (h : exec i s = .next t) : t.TablesInv := by
  rcases exec_tables h with hsame | ⟨u, -, hsame, ⟨-, hu⟩ | ⟨-, hphase, hu⟩ | ⟨-, hphase, hu⟩⟩
  · exact hsame.tablesInv hs
  · refine hsame.tablesInv ?_
    have hfreq := State.FreqInv.of_clearBody hu
    cases hu
    exact hs.of_unbuilt rfl hfreq nofun
  · refine hsame.tablesInv (hs.of_unbuilt (by rw [countBody_frame hu]) (hs.freq.of_countBody hu) ?_)
    rw [countBody_phase hu]
    split
    · exact hphase
    · decide
  · cases (buildBody_eq s).symm.trans hu
    exact hsame.tablesInv (hs.afterBuild hphase)

/-- Settles O60: BUILD makes the tree of R45 and its code table, CLEAR, COUNT and reset leave no tree, and nothing else
writes the tables. -/
theorem stepKeepsTablesInv : Obligations.StepKeepsTablesInv := fun _ _ hs hstep =>
  step_keeps (P := State.TablesInv) (fun u hu => (State.SameTables.takeEvent u).tablesInv hu)
    (fun _ _ _ hu h => (State.SameTables.hostAccess h).tablesInv hu) (fun _ _ _ hu h => exec_keeps_tablesInv hu h)
    (fun u _ hu => (State.SameTables.raiseError u _ _).tablesInv hu)
    (fun u hu => hu.of_unbuilt u.hardReset_params (.hardReset u) nofun) hs hstep

/-! ## The frame of a command (R53) -/

/-! An error always carries a code other than 0 (R200), so a command that ends with ERRCODE 0 succeeded. -/

theorem phaseCheck_code_ne_none {i : Instr} {p : Phase} {w : Word} {e : CmdError} (h : phaseCheck i p w = some e) :
    e.code ≠ .none := by
  cases i <;> cases p <;> cases h <;> nofun

theorem State.encodeScan_code_ne_none {s : State} {cap : Nat} {data : List Byte} {i used : Nat} {e : CmdError}
    (h : s.encodeScan cap i used data = .error e) : e.code ≠ .none := by
  induction data generalizing i used with
  | nil => cases h
  | cons b data ih =>
    unfold State.encodeScan at h
    split at h
    · cases h; nofun
    split at h
    · cases h; nofun
    split at h
    · cases h
    · next hrest => cases h; exact ih hrest

theorem State.inputBit_code_ne_none {s : State} {fmt : Fmt} {k : Nat} {e : CmdError}
    (h : s.inputBit fmt k = .error e) : e.code ≠ .none := by
  cases fmt with
  | packed => cases h
  | ascii =>
    unfold State.inputBit at h
    dsimp only at h
    split at h
    · cases h
    split at h <;> cases h
    nofun

theorem State.walkBit_code_ne_none {s : State} {w : Walk} {k : Nat} {b : Bool} {e : CmdError}
    (h : s.walkBit w k b = .error e) : e.code ≠ .none := by
  unfold State.walkBit at h
  split at h
  · cases h; nofun
  · split at h <;> cases h
    nofun
  · cases h
  · cases h

theorem State.decodeScan_code_ne_none {s : State} {fmt : Fmt} {n k : Nat} {w : Walk} {e : CmdError}
    (h : s.decodeScan fmt n k w = .error e) : e.code ≠ .none := by
  induction n generalizing k w with
  | zero => cases h
  | succ n ih =>
    unfold State.decodeScan at h
    split at h
    · next hbit => cases h; exact State.inputBit_code_ne_none hbit
    split at h
    · next hwalk => cases h; exact State.walkBit_code_ne_none hwalk
    · exact ih h

theorem encodeBody_code_ne_none {fmt : Fmt} {s : State} {e : CmdError} (h : encodeBody fmt s = .error e) :
    e.code ≠ .none := by
  unfold encodeBody at h
  split at h
  · cases h; nofun
  split at h
  · cases h
  · next hscan => cases h; exact State.encodeScan_code_ne_none hscan

theorem decodeBody_code_ne_none {fmt : Fmt} {s : State} {e : CmdError} (h : decodeBody fmt s = .error e) :
    e.code ≠ .none := by
  unfold decodeBody at h
  split at h
  · cases h; nofun
  split at h
  · next hscan => cases h; exact State.decodeScan_code_ne_none hscan
  · split at h <;> cases h
    nofun

theorem bodyOf_code_ne_none {i : Instr} {s : State} {e : CmdError} (h : bodyOf i s = .error e) : e.code ≠ .none := by
  cases i with
  | count =>
    replace h : countBody s = .error e := h
    unfold countBody at h
    split at h
    · cases h; nofun
    split at h <;> cases h
    nofun
  | encode fmt => exact encodeBody_code_ne_none h
  | decode fmt => exact decodeBody_code_ne_none h
  | travNext =>
    replace h : travNextBody s = .error e := h
    unfold travNextBody at h
    split at h <;> cases h
  | _ => cases h

/-- A command that leaves ERRCODE 0 succeeded (R103, R104). -/
theorem exec_ok_of_errCode_none {i : Instr} {s t : State} (h : exec i s = .next t) (ht : t.errCode = .none) :
    ∃ u, phaseCheck i s.phase s.lcmd = none ∧ bodyOf i s = .ok u ∧ t = u.succeed := by
  rcases exec_cases h with ⟨e, hp, rfl⟩ | ⟨e, -, hb, rfl⟩ | hok
  · rw [State.raiseError_frame] at ht
    exact absurd ht (phaseCheck_code_ne_none hp)
  · rw [State.raiseError_frame] at ht
    exact absurd ht (bodyOf_code_ne_none hb)
  · exact hok

/-- ENCODE and DECODE that succeed store to OBUF below OUT_LEN only (R160, R172). -/
theorem codec_stores_below_outLen {i : Instr} {s u : State} (hlegal : s.params.legal = true) (hi : i.isCodec = true)
    (h : bodyOf i s = .ok u) {a : Nat} (ha : u.outLen.toNat ≤ a) : u.obufByte a = s.obufByte a := by
  have hsize := (Params.legal_iff _).1 hlegal
  cases i with
  | encode fmt =>
    obtain ⟨bits, hbits, rfl⟩ := encodeBody_ok h
    have hlt := hbits.trans_lt (State.outputBitCapacity_lt hlegal fmt)
    rw [State.writeStream_outLen_toNat s fmt hlt] at ha
    simp only [State.obufByte, State.writeStream_obuf, State.writeStream_obufDraw, Memory.lookup_writeBytes]
    rw [if_neg (by omega)]
  | decode fmt =>
    obtain ⟨w, hw, rfl⟩ := decodeBody_ok h
    have hout := hw.out_le
    have hlen : (s.finishDecode (s.inputBits fmt) w).outLen.toNat = w.out := Nat.mod_eq_of_lt (by omega)
    rw [hlen] at ha
    simp only [State.obufByte, State.finishDecode_obuf, State.finishDecode_obufDraw, hw.beyond a ha]
  | _ => cases hi

/-- What a command leaves unchanged (R53): the host's registers and IBUF always, each other piece of state unless the
command is one that writes it. -/
structure CommandKeeps (i : Instr) (s t : State) : Prop where
  model : t.params = s.params ∧ t.events = s.events ∧ t.answer = s.answer
  host : t.cmdOvr = s.cmdOvr ∧ t.ie = s.ie ∧ t.len = s.len ∧ t.bitlen = s.bitlen ∧ t.lcmd = s.lcmd ∧ t.ibuf = s.ibuf
  freq : i ≠ .clear → i ≠ .count → t.ft = s.ft ∧ t.nsym = s.nsym ∧ t.total = s.total
  phase : i ≠ .clear → i ≠ .count → i ≠ .build → t.phase = s.phase
  tree : i ≠ .build → t.node = s.node ∧ t.nnodes = s.nnodes ∧ t.root = s.root ∧ t.ct = s.ct
  tpos : i ≠ .clear → i ≠ .build → i ≠ .travStart → i ≠ .travNext → t.tpos = s.tpos
  res : i ≠ .clear → i ≠ .travNext → (∀ sym, i ≠ .query sym) → t.res = s.res
  out : i ≠ .clear → i.isCodec = false → t.outLen = s.outLen ∧ t.outBits = s.outBits
  walk : (∀ fmt, i ≠ .decode fmt) → t.cur = s.cur ∧ t.start = s.start
  obuf : i.isCodec = false → t.obuf = s.obuf ∧ t.obufDraw = s.obufDraw

theorem CommandKeeps.raiseError (i : Instr) (s : State) (e : CmdError) : CommandKeeps i s (s.raiseError i.isCodec e) := by
  rw [State.raiseError_frame]
  constructor <;> simp +contextual

theorem CommandKeeps.succeed {i : Instr} {s u : State} (h : CommandKeeps i s u) : CommandKeeps i s u.succeed :=
  ⟨h.model, h.host, h.freq, h.phase, h.tree, h.tpos, h.res, h.out, h.walk, h.obuf⟩

theorem CommandKeeps.bodyOf {i : Instr} {s u : State} (h : bodyOf i s = .ok u) : CommandKeeps i s u := by
  cases i with
  | nop => cases h; constructor <;> simp
  | clear => cases h; constructor <;> simp
  | count => rw [countBody_frame h]; constructor <;> simp
  | build => cases h; constructor <;> simp
  | encode fmt =>
    obtain ⟨bits, -, rfl⟩ := encodeBody_ok h
    constructor <;> simp [Instr.isCodec]
  | decode fmt =>
    obtain ⟨w, -, rfl⟩ := decodeBody_ok h
    constructor <;> simp [Instr.isCodec]
  | travStart => cases h; constructor <;> simp
  | travNext => rw [travNextBody_frame h]; constructor <;> simp
  | query sym => cases h; constructor <;> simp

theorem exec_keeps {i : Instr} {s t : State} (h : exec i s = .next t) : CommandKeeps i s t := by
  rcases exec_cases h with ⟨e, -, rfl⟩ | ⟨e, -, -, rfl⟩ | ⟨u, -, hu, rfl⟩
  · exact .raiseError i s e
  · exact .raiseError i s e
  · exact (CommandKeeps.bodyOf hu).succeed

/-- Settles O14: the frame holds of the error entry and of each body, and a codec that succeeds stores below OUT_LEN. -/
theorem commandFrame : Obligations.CommandFrame := by
  intro i s t hlegal h
  obtain ⟨⟨hparams, hevents, hanswer⟩, ⟨hovr, hie, hlen, hbitlen, hlcmd, hibuf⟩, hfreq, hphase, htree, htpos, hres, hout,
    hwalk, hobuf⟩ := exec_keeps h
  refine ⟨hparams, hevents, hanswer, hovr, hie, hlen, hbitlen, hlcmd, State.ibufByte_congr hibuf, hfreq, hphase, htree,
    htpos, hres, hout, hwalk, fun hi => ?_, fun hi _ ht a ha => ?_⟩
  · obtain ⟨hsame, hdraw⟩ := hobuf hi
    exact State.obufByte_congr hsame hdraw
  · obtain ⟨u, -, hu, rfl⟩ := exec_ok_of_errCode_none h ht
    exact codec_stores_below_outLen hlegal hi hu ha

/-! ## The phases (R30) -/

/-- While a command runs, no host access touches LCMD, BUSY or ERRCODE (R101, R238). -/
theorem hostAccess_busy {a : BusAccess} {s t : State} (hb : s.busy = true) (h : hostAccess a s = .next t) :
    t.lcmd = s.lcmd ∧ t.busy = true ∧ t.errCode = s.errCode := by
  rcases hostAccess_cases h with rfl | rfl | rfl | rfl | rfl | rfl | ⟨hidle, -⟩ | ⟨hidle, -⟩ | ⟨i, bytes, rfl⟩
  · exact ⟨rfl, hb, rfl⟩
  · rw [State.busRead_frame]; exact ⟨rfl, hb, rfl⟩
  · exact ⟨rfl, hb, rfl⟩
  · rw [State.writeCmd, if_pos hb]; exact ⟨rfl, hb, rfl⟩
  · exact ⟨rfl, hb, rfl⟩
  · exact ⟨rfl, hb, rfl⟩
  · rw [hb] at hidle; cases hidle
  · rw [hb] at hidle; cases hidle
  · exact ⟨rfl, hb, rfl⟩

/-- A COUNT that changes the phase moves it from EMPTY to COLLECT and has counted a symbol (R120). -/
theorem countBody_changes_phase {s u : State} (hphase : s.phase ≠ .built) (h : countBody s = .ok u)
    (hne : u.phase ≠ s.phase) : s.phase = .empty ∧ u.phase = .collect ∧ u.nsym ≠ 0 := by
  rw [countBody_phase h] at hne ⊢
  split at hne
  · exact absurd rfl hne
  · next hn =>
    rw [if_neg hn]
    cases hs : s.phase
    · exact ⟨rfl, rfl, hn⟩
    · exact absurd hs.symm hne
    · exact absurd hs hphase

/-- The commands that change the phase, and how (R30). -/
theorem exec_phase {i : Instr} {s t : State} (h : exec i s = .next t) (hne : t.phase ≠ s.phase) :
    t.busy = false ∧ t.done = true ∧ t.errCode = s.errCode ∧
      ((i = .clear ∧ t.phase = .empty) ∨ (i = .count ∧ s.phase = .empty ∧ t.phase = .collect ∧ t.nsym ≠ 0) ∨
        (i = .build ∧ s.phase = .collect ∧ t.phase = .built)) := by
  rcases exec_tables h with hsame | ⟨u, rfl, -, ⟨rfl, hu⟩ | ⟨rfl, hphase, hu⟩ | ⟨rfl, hphase, hu⟩⟩
  · exact absurd hsame.phase hne
  · cases hu
    exact ⟨rfl, rfl, rfl, .inl ⟨rfl, rfl⟩⟩
  · have hchange := countBody_changes_phase hphase hu hne
    exact ⟨rfl, rfl, by rw [countBody_frame hu]; rfl, .inr (.inl ⟨rfl, hchange⟩)⟩
  · cases hu
    exact ⟨rfl, rfl, rfl, .inr (.inr ⟨rfl, hphase, rfl⟩)⟩

/-- The engine's turn changes the phase only by completing one of those commands (R30). -/
theorem engineTurn_phase {s t : State} (h : engineTurn s = .next t) (hne : t.phase ≠ s.phase) :
    s.busy = true ∧ t.busy = false ∧ t.done = true ∧ t.errCode = s.errCode ∧
      ((decodeWord s.lcmd = .ok .clear ∧ t.phase = .empty) ∨
        (decodeWord s.lcmd = .ok .count ∧ s.phase = .empty ∧ t.phase = .collect ∧ t.nsym ≠ 0) ∨
        (decodeWord s.lcmd = .ok .build ∧ s.phase = .collect ∧ t.phase = .built)) := by
  rcases engineTurn_cases s with ⟨-, he⟩ | ⟨hb, i, hi, he⟩ | ⟨-, -, -, he⟩ <;> rw [he] at h
  · cases h
    exact absurd rfl hne
  · obtain ⟨hbusy, hdone, herr, hcases⟩ := exec_phase h hne
    refine ⟨hb, hbusy, hdone, herr, ?_⟩
    rcases hcases with ⟨rfl, hp⟩ | ⟨rfl, hp⟩ | ⟨rfl, hp⟩
    · exact .inl ⟨hi, hp⟩
    · exact .inr (.inl ⟨hi, hp⟩)
    · exact .inr (.inr ⟨hi, hp⟩)
  · cases h
    exact absurd (State.SameTables.raiseError s _ _).phase hne

/-- Settles O43: host accesses keep the phase, and a command that changes it runs with ERRCODE 0 and succeeds. -/
theorem phaseChangesOnlyByTheseEvents : Obligations.PhaseChangesOnlyByTheseEvents := by
  intro s t hs hstep hne
  rcases step_cases hstep with ⟨-, h⟩ | ⟨a, -, -, h⟩ | ⟨a, -, u, -, hb, hu, h⟩ | ⟨es, he, rfl⟩
  · obtain ⟨hb, hbusy, hdone, herr, hcases⟩ := engineTurn_phase h hne
    exact .inr ⟨hb, hbusy, hdone, herr.trans (hs.busy_errCode hb), hcases⟩
  · exact absurd (State.SameTables.hostAccess h).phase hne
  · have hphase : u.phase = s.phase := (State.SameTables.hostAccess hu).phase
    obtain ⟨hlcmd, -, hcode⟩ := hostAccess_busy (s := s.takeEvent) hb hu
    obtain ⟨-, hbusy, hdone, herr, hcases⟩ := engineTurn_phase h (hphase ▸ hne)
    rw [hlcmd, hphase] at hcases
    exact .inr ⟨hb, hbusy, hdone, (herr.trans hcode).trans (hs.busy_errCode hb), hcases⟩
  · exact .inl ⟨by rw [he]; rfl, rfl⟩

/-! ## The fields of STATUS (R26, R30, R200) -/

section
variable (s : State)

/-- The bits of STATUS, field by field (R26). -/
theorem State.statusWord_getLsbD (i : Nat) :
    s.statusWord.getLsbD i =
      if i < 1 then (flagBit s.busy).getLsbD i
      else if i < 2 then (flagBit s.done).getLsbD (i - 1)
      else if i < 3 then (flagBit s.cmdOvr).getLsbD (i - 2)
      else if i < 4 then false
      else if i < 6 then s.phase.code.getLsbD (i - 4)
      else if i < 8 then false
      else if i < 12 then s.errCode.code.getLsbD (i - 8)
      else false := by
  have hsub : ∀ a c, 0 < c → (i - a < c ↔ i < a + c) := by omega
  change BitVec.getLsbD (w := 20 + 4 + 2 + 2 + 1 + 1 + 1 + 1) s.statusWord i = _
  simp only [State.statusWord, BitVec.getLsbD_append]
  simp (disch := decide) only [Nat.sub_sub, hsub, Nat.reduceAdd, BitVec.ofNat_eq_ofNat, BitVec.getLsbD_zero]

theorem State.statusWord_flags :
    s.statusWord.getLsbD 0 = s.busy ∧ s.statusWord.getLsbD 1 = s.done ∧ s.statusWord.getLsbD 2 = s.cmdOvr ∧
      s.statusWord.getLsbD 3 = false := by
  simp only [State.statusWord_getLsbD]
  simp [flagBit]

theorem State.statusWord_phase : s.statusWord.extractLsb' 4 2 = s.phase.code := by
  ext i hi
  rw [BitVec.getElem_extractLsb', State.statusWord_getLsbD]
  simp (disch := omega) only [if_neg, if_pos, Nat.add_sub_cancel_left, BitVec.getLsbD_eq_getElem]

theorem State.statusWord_errCode : s.statusWord.extractLsb' 8 4 = s.errCode.code := by
  ext i hi
  rw [BitVec.getElem_extractLsb', State.statusWord_getLsbD]
  simp (disch := omega) only [if_neg, if_pos, Nat.add_sub_cancel_left, BitVec.getLsbD_eq_getElem]

theorem State.statusWord_reserved_low : s.statusWord.extractLsb' 6 2 = 0 := by
  ext i hi
  rw [BitVec.getElem_extractLsb', State.statusWord_getLsbD]
  simp (disch := omega) only [if_neg, if_pos, BitVec.getElem_zero, BitVec.ofNat_eq_ofNat]

theorem State.statusWord_reserved_high : s.statusWord.extractLsb' 12 20 = 0 := by
  ext i hi
  rw [BitVec.getElem_extractLsb', State.statusWord_getLsbD]
  simp (disch := omega) only [if_neg, BitVec.getElem_zero, BitVec.ofNat_eq_ofNat]

end

theorem Phase.code_inj {p q : Phase} : p.code = q.code ↔ p = q := by
  cases p <;> cases q <;> decide

theorem ErrCode.code_inj {c d : ErrCode} : c.code = d.code ↔ c = d := by
  cases c <;> cases d <;> decide

/-- Settles O45: each field of STATUS is the value it stands for, and the codes of phases and errors are distinct. -/
theorem statusWordLayout : Obligations.StatusWordLayout := by
  intro s
  obtain ⟨hbusy, hdone, hovr, hbit3⟩ := s.statusWord_flags
  rw [s.statusWord_phase, s.statusWord_errCode]
  exact ⟨hbusy, hdone, hovr, hbit3, Phase.code_inj (q := .empty), Phase.code_inj (q := .collect),
    Phase.code_inj (q := .built), s.statusWord_reserved_low, ErrCode.code_inj (d := .none), ErrCode.code_inj (d := .emptyInput),
    ErrCode.code_inj (d := .buildError), ErrCode.code_inj (d := .unknownSymbol), ErrCode.code_inj (d := .invalidBit),
    ErrCode.code_inj (d := .truncatedStream), ErrCode.code_inj (d := .illegalCommand),
    ErrCode.code_inj (d := .sequenceError), ErrCode.code_inj (d := .capacityError), s.statusWord_reserved_high,
    Bool.and_eq_true_iff⟩

/-! ## Register accesses (R22, R23, R60) -/

section
variable {off : Nat}

/-- A word access of the register region at a word-aligned offset is legal and goes to that offset (R60-R62). -/
theorem registerAccess_legal (hoff : off < 0x10000) (halign : off % 4 = 0) (we : Bool) (w : Word) :
    BusAccess.legal ⟨we, 2, BitVec.ofNat 18 off, w⟩ = true ∧
      BusAccess.region ⟨we, 2, BitVec.ofNat 18 off, w⟩ = .registers ∧
      BusAccess.offset ⟨we, 2, BitVec.ofNat 18 off, w⟩ = off := by
  have haddr : (BitVec.ofNat 18 off).toNat = off := Nat.mod_eq_of_lt (by omega)
  have hregion : off / 0x10000 = 0 := Nat.div_eq_of_lt hoff
  refine ⟨?_, by simp [BusAccess.region, haddr, hregion], by rw [BusAccess.offset, haddr, Nat.mod_eq_of_lt hoff]⟩
  simp [BusAccess.legal, BusAccess.sizeLegal, BusAccess.aligned, BusAccess.bytes, BusAccess.widthAllowed, haddr, halign]

theorem hostAccess_readReg (hoff : off < 0x10000) (halign : off % 4 = 0) (w : Word) (s : State) :
    hostAccess ⟨false, 2, BitVec.ofNat 18 off, w⟩ s = .next (s.readReg off) := by
  obtain ⟨hlegal, hregion, hoffset⟩ := registerAccess_legal hoff halign false w
  rw [hostAccess, if_pos hlegal, if_neg Bool.false_ne_true, State.busRead, hregion, hoffset]

theorem hostAccess_writeReg (hoff : off < 0x10000) (halign : off % 4 = 0) (w : Word) (s : State) :
    hostAccess ⟨true, 2, BitVec.ofNat 18 off, w⟩ s = s.writeReg off w := by
  obtain ⟨hlegal, hregion, hoffset⟩ := registerAccess_legal hoff halign true w
  rw [hostAccess, if_pos hlegal, if_pos rfl, State.busWrite, hregion, hoffset]

/-- RES0-RES9 stand at 0x030 to 0x054 (R22). -/
theorem Reg.atOffset_res {k : Nat} (hk : k < 10) : Reg.atOffset (0x030 + 4 * k) = some (.res ⟨k, hk⟩) := by
  unfold Reg.atOffset
  split
  case h_13 =>
    rw [dif_pos (by omega)]
    congr 3
    omega
  all_goals omega

/-- No register stands past RES9 (R22, R23). -/
theorem Reg.atOffset_none (hoff : 0x058 ≤ off) : Reg.atOffset off = none := by
  unfold Reg.atOffset
  split
  case h_13 => rw [dif_neg (by omega)]
  all_goals omega

/-- On an idle block a read of a register returns its value (R23). -/
theorem State.readReg_idle {s : State} {r : Reg} (hb : s.busy = false) (h : Reg.atOffset off = some r) :
    s.readReg off = s.answerRead (s.regValue r) := by
  simp [State.readReg, h, hb]

theorem State.readReg_none {s : State} (h : Reg.atOffset off = none) : s.readReg off = s.answerRead 0 := by
  simp [State.readReg, h]

theorem State.resAt_of_lt (s : State) {k : Nat} (hk : k < 10) : s.resAt k = s.res[k] := by
  simp [State.resAt, hk]

theorem State.ctrlWord_eq (s : State) : s.ctrlWord = if s.ie then 1 else 0 := by
  unfold State.ctrlWord
  cases s.ie <;> rfl

theorem BusAccess.region_reserved {a : BusAccess} (h : 0x30000 ≤ a.addr.toNat) : a.region = .reserved := by
  have hlt := a.addr.isLt
  have hdiv : a.addr.toNat / 0x10000 = 3 := by omega
  simp [BusAccess.region, hdiv]

/-- A write at or past the OBUF window changes nothing (R60, R65). -/
theorem State.busWrite_of_readOnly {a : BusAccess} (s : State) (h : 0x20000 ≤ a.addr.toNat) :
    s.busWrite a = .next s.answerWrite := by
  have hlt := a.addr.isLt
  obtain hdiv | hdiv : a.addr.toNat / 0x10000 = 2 ∨ a.addr.toNat / 0x10000 = 3 := by omega
  · simp [State.busWrite, BusAccess.region, hdiv]
  · simp [State.busWrite, BusAccess.region, hdiv]

end

/-- Settles O46: each offset of the map holds its register, no other offset holds one, and an idle block reads its
registers as they are. -/
theorem idleRegisterReads : Obligations.IdleRegisterReads := by
  refine ⟨fun a s hlegal hwe haddr => ?_, fun s hb => ?_⟩
  · rw [hostAccess, if_pos hlegal, hwe, if_neg Bool.false_ne_true, State.busRead, BusAccess.region_reserved haddr]
    rfl
  have hreads : ∀ {off r v}, off < 0x10000 → off % 4 = 0 → Reg.atOffset off = some r → s.regValue r = v →
      hostAccess ⟨false, 2, BitVec.ofNat 18 off, 0⟩ s = .next { s with answer := some (.ackRead v) } := by
    intro off r v hoff halign hreg hv
    rw [hostAccess_readReg hoff halign, State.readReg_idle hb hreg, hv]
    rfl
  refine ⟨hreads (by decide) rfl rfl rfl, hreads (by decide) rfl rfl rfl, hreads (by decide) rfl rfl rfl,
    hreads (by decide) rfl rfl rfl, hreads (by decide) rfl rfl s.ctrlWord_eq, hreads (by decide) rfl rfl rfl,
    hreads (by decide) rfl rfl rfl, hreads (by decide) rfl rfl rfl, hreads (by decide) rfl rfl rfl,
    hreads (by decide) rfl rfl rfl, hreads (by decide) rfl rfl rfl, hreads (by decide) rfl rfl rfl,
    fun k hk => hreads (by omega) (by omega) (Reg.atOffset_res hk) (s.resAt_of_lt hk).symm, fun off hlow hoff halign => ?_⟩
  have hread := hostAccess_readReg hoff halign 0 s
  rw [State.readReg_none (Reg.atOffset_none hlow)] at hread
  exact hread

/-- The registers a host write does not reach (R23). -/
def Reg.readOnly : Reg → Bool
  | .id | .version | .outLen | .outBits | .nsym | .total | .errpos | .res _ => true
  | .cmd | .status | .ctrl | .len | .bitlen => false

theorem State.writeReg_readOnly {s : State} {off : Nat} {r : Reg} (w : Word) (h : Reg.atOffset off = some r)
    (hr : r.readOnly = true) : s.writeReg off w = .next s.answerWrite := by
  unfold State.writeReg
  rw [h]
  cases r with
  | cmd | status | ctrl | len | bitlen => cases hr
  | _ => rfl

/-- Settles O47: a read-only register, an empty offset and the windows at or past OBUF take no write; CTRL takes one at
any time, LEN and BITLEN on an idle block. -/
theorem registerWrites : Obligations.RegisterWrites := by
  intro s w
  have hignored : ∀ {off r}, off < 0x10000 → off % 4 = 0 → Reg.atOffset off = some r → r.readOnly = true →
      hostAccess ⟨true, 2, BitVec.ofNat 18 off, w⟩ s = .next { s with answer := some .ackWrite } :=
    fun hoff halign hreg hr => (hostAccess_writeReg hoff halign w s).trans (State.writeReg_readOnly w hreg hr)
  refine ⟨fun off hoff => ?_, fun k hk => ?_, fun off hlow hoff halign => ?_, fun a hlegal hwe haddr => ?_, ?_,
    fun hb => ⟨?_, ?_⟩⟩
  · fin_cases hoff <;> exact hignored (by decide) rfl rfl rfl
  · exact hignored (by omega) (by omega) (Reg.atOffset_res hk) rfl
  · have hwrite := hostAccess_writeReg hoff halign w s
    rw [State.writeReg, Reg.atOffset_none hlow] at hwrite
    exact hwrite
  · rw [hostAccess, if_pos hlegal, hwe, if_pos rfl]
    exact s.busWrite_of_readOnly haddr
  · exact hostAccess_writeReg (by decide) rfl w s
  · have hwrite := hostAccess_writeReg (off := 0x014) (by decide) rfl w s
    exact hwrite.trans (if_neg (by simp [hb]))
  · have hwrite := hostAccess_writeReg (off := 0x018) (by decide) rfl w s
    exact hwrite.trans (if_neg (by simp [hb]))

/-! ## STATUS writes and completion (R27, R105) -/

/-- However a command ends, BUSY is 0 and DONE is 1 (R103, R104). -/
theorem exec_completes {i : Instr} {s t : State} (h : exec i s = .next t) : t.busy = false ∧ t.done = true := by
  rcases exec_cases h with ⟨e, -, rfl⟩ | ⟨e, -, -, rfl⟩ | ⟨u, -, -, rfl⟩
  · exact ⟨rfl, rfl⟩
  · exact ⟨rfl, rfl⟩
  · exact ⟨rfl, rfl⟩

/-- A running command's engine turn completes it and leaves CMD_OVR as it was (R53, R105). -/
theorem engineTurn_completes {s : State} (hb : s.busy = true) :
    ∃ t, engineTurn s = .next t ∧ t.busy = false ∧ t.done = true ∧ t.cmdOvr = s.cmdOvr := by
  obtain ⟨t, ht⟩ := engineTurn_next s
  refine ⟨t, ht, ?_⟩
  rcases engineTurn_cases s with ⟨hidle, -⟩ | ⟨-, i, -, he⟩ | ⟨-, -, -, he⟩
  · rw [hb] at hidle; cases hidle
  · rw [he] at ht
    obtain ⟨hbusy, hdone⟩ := exec_completes ht
    exact ⟨hbusy, hdone, (exec_keeps ht).host.1⟩
  · rw [he] at ht
    cases ht
    exact ⟨rfl, rfl, rfl⟩

/-- A write of `w` to STATUS, at any time (R27). -/
theorem hostAccess_writeStatus (s : State) (w : Word) :
    hostAccess ⟨true, 2, 0x0000C, w⟩ s = .next (s.writeStatus w).answerWrite :=
  hostAccess_writeReg (off := 0x00C) (by decide) rfl w s

theorem step_of_event {s : State} {e : HostEvent} (h : s.events.head? = some e) : step s = hostEvent e s.takeEvent := by
  unfold step
  cases hes : s.events with
  | nil => rw [hes] at h; cases h
  | cons e' es =>
    rw [hes] at h
    cases h
    rfl

/-- An access in the cycle of completion takes effect, then the running command completes (R27). -/
theorem step_accessAtCompletion {s u : State} {a : BusAccess} (hb : s.busy = true)
    (he : s.events.head? = some (.accessAtCompletion a)) (hu : hostAccess a s.takeEvent = .next u) :
    step s = engineTurn u := by
  rw [step_of_event he]
  show accessThenComplete a s.takeEvent = engineTurn u
  rw [accessThenComplete, State.takeEvent_busy, if_pos hb, hu]

/-- Settles O48: the write clears by bit, and in the cycle of completion the engine's turn follows it. -/
theorem statusWriteClears : Obligations.StatusWriteClears := by
  intro s w
  have hclear : ∀ b c : Bool, (if b then false else c) = (c && !b) := by decide
  refine ⟨?_, fun hb he => ?_⟩
  · rw [hostAccess_writeStatus, State.writeStatus, hclear, hclear]
    rfl
  · have hwrite := hostAccess_writeStatus s.takeEvent w
    obtain ⟨t, ht, hbusy, hdone, hovr⟩ := engineTurn_completes (s := (s.takeEvent.writeStatus w).answerWrite) hb
    exact ⟨t, (step_accessAtCompletion hb he hwrite).trans ht, hbusy, hdone, hovr.trans (hclear _ _)⟩

/-! ## The state after reset (R51) -/

/-- Settles O56: every register of the reset state is 0, and its empty tables and buffers meet every invariant. -/
theorem resetMeetsInvariants : Obligations.ResetMeetsInvariants := by
  have hfreq : State.reset.FreqInv := .of_cleared rfl rfl rfl rfl
  have hinv : State.reset.RunInv :=
    { tables := ⟨by decide, hfreq, nofun, nofun⟩
      buffers := ⟨rfl, rfl, by decide⟩
      status := ⟨nofun, nofun⟩
      iterator := ⟨nofun, fun _ => rfl⟩ }
  have hres : ∀ k, State.reset.resAt k = 0 := by
    intro k
    simp only [State.resAt, State.reset, Vector.getElem?_replicate]
    split <;> rfl
  have hft : ∀ sym, State.reset.ftAt sym = FreqEntry.absent := fun sym => Vector.getElem_replicate _
  exact ⟨hinv, rfl, rfl, rfl, rfl, rfl, rfl, rfl, rfl, rfl, rfl, hres, rfl, hft, rfl, rfl⟩

end Sys2Proof.Machine


/-! # Scope: the answers of host accesses (R37, R61, R62), the buffer windows (R60, R64, R65) and reads (R69) -/

namespace Sys2Proof.Machine

/-! ## Which access is legal (R61, R62) -/

section
variable {a : BusAccess}

theorem BusAccess.region_eq_registers_iff : a.region = .registers ↔ a.addr.toNat < 0x10000 := by
  by_cases hdiv : a.addr.toNat / 0x10000 = 0
  · simp only [BusAccess.region, hdiv, true_iff]
    omega
  · have hregion : a.region ≠ .registers := by
      unfold BusAccess.region
      split
      · contradiction
      all_goals decide
    simp only [hregion, false_iff]
    omega

/-- A legal access has none of the three faults of R61 and R62. -/
theorem BusAccess.legal_iff :
    a.legal = true ↔
      ¬ (a.size = 3 ∨ a.addr.toNat % 2 ^ a.size.toNat ≠ 0 ∨ (a.addr.toNat < 0x10000 ∧ a.size ≠ 2)) := by
  simp only [BusAccess.legal, BusAccess.sizeLegal, BusAccess.aligned, BusAccess.widthAllowed, BusAccess.bytes,
    Bool.and_eq_true, Bool.or_eq_true, bne_iff_ne, beq_iff_eq, ne_eq, BusAccess.region_eq_registers_iff]
  tauto

/-- A legal access moves at most four bytes (R61). -/
theorem BusAccess.bytes_le_four (h : a.legal = true) : a.bytes ≤ 4 := by
  have hsize : a.size ≠ 3 := fun h3 => BusAccess.legal_iff.1 h (.inl h3)
  have hle : a.size.toNat ≤ 2 := by bv_omega
  exact Nat.pow_le_pow_right (by decide) hle

/-! ## How an access is answered (R37) -/

variable {s t : State}

theorem hostAccess_illegal (h : ¬ a.legal = true) : hostAccess a s = .next (s.answerError a) := by
  rw [hostAccess, if_neg h]

theorem hostAccess_read (h : a.legal = true) (hwe : a.we = false) : hostAccess a s = .next (s.busRead a) := by
  rw [hostAccess, if_pos h, hwe, if_neg Bool.false_ne_true]

theorem hostAccess_write (h : a.legal = true) (hwe : a.we = true) : hostAccess a s = s.busWrite a := by
  rw [hostAccess, if_pos h, if_pos hwe]

/-- The error answer raises hb_err alone and, for a read, returns 0 (R62). -/
theorem State.answerError_ports (s : State) (a : BusAccess) :
    (s.answerError a).hbErr = true ∧ (s.answerError a).hbAck = false ∧
      (a.we = false → (s.answerError a).hbRdata = some 0) := by
  simp only [State.hbErr, State.hbAck, State.hbRdata, State.answerError_answer]
  cases a.we <;> simp

theorem State.busRead_acks (s : State) (a : BusAccess) : ∃ w, (s.busRead a).answer = some (.ackRead w) := by
  unfold State.busRead State.readReg State.readIbuf State.readObuf
  split
  · split
    · exact ⟨_, rfl⟩
    · split <;> exact ⟨_, rfl⟩
  · exact ⟨_, rfl⟩
  · split <;> exact ⟨_, rfl⟩
  · exact ⟨_, rfl⟩

theorem State.writeReg_acks {off : Nat} {w : Word} (h : s.writeReg off w = .next t) :
    t.answer = some .ackWrite := by
  unfold State.writeReg at h
  split at h
  case h_5 => split at h <;> cases h; rfl
  case h_6 => split at h <;> cases h; rfl
  all_goals (cases h; rfl)

theorem State.writeIbuf_acks {i : Nat} {bytes : List Byte} (h : s.writeIbuf i bytes = .next t) :
    t.answer = some .ackWrite := by
  unfold State.writeIbuf at h
  split at h <;> cases h
  rfl

theorem State.busWrite_acks (h : s.busWrite a = .next t) : t.answer = some .ackWrite := by
  unfold State.busWrite at h
  split at h
  · exact State.writeReg_acks h
  · exact State.writeIbuf_acks h
  · cases h; rfl
  · cases h; rfl

/-- A legal access that takes effect raises hb_ack alone (R37). -/
theorem hostAccess_acks (hlegal : a.legal = true) (h : hostAccess a s = .next t) :
    t.hbErr = false ∧ t.hbAck = true := by
  cases hwe : a.we with
  | false =>
    rw [hostAccess_read hlegal hwe] at h
    cases h
    obtain ⟨w, hw⟩ := s.busRead_acks a
    simp [State.hbErr, State.hbAck, hw]
  | true =>
    rw [hostAccess_write hlegal hwe] at h
    simp [State.hbErr, State.hbAck, State.busWrite_acks h]

end

/-- Settles O44: the illegal accesses are those that are not `legal`, and each takes the error answer and nothing else;
a legal one is acknowledged. -/
theorem illegalAccessAnsweredWithError : Obligations.IllegalAccessAnsweredWithError := by
  intro a s
  rw [← BusAccess.legal_iff]
  refine ⟨fun hill => ?_, fun hlegal t h => hostAccess_acks hlegal h⟩
  exact ⟨s.answerError a, hostAccess_illegal fun hlegal => BusAccess.legal_iff.1 hlegal hill, rfl, s.answerError_ports a⟩

/-! ## A write to the IBUF window (R60, R64, R65) -/

theorem busBytes_getElem (w : Word) (j n k : Nat) (h : k < (busBytes w j n).length) :
    (busBytes w j n)[k] = busByte w (j + k) := by
  induction n generalizing j k with
  | zero => simp [busBytes] at h
  | succ n ih =>
    rcases k with _ | k
    · simp [busBytes]
    · simp only [busBytes, List.getElem_cons_succ]
      rw [ih, Nat.add_right_comm, Nat.add_assoc]

theorem State.writeIbuf_idle {s : State} (hb : s.busy = false) (i : Nat) (bytes : List Byte) :
    s.writeIbuf i bytes =
      .next { s with ibuf := Memory.writeBytes s.ibuf i (s.bytesInIbuf i bytes) }.answerWrite := by
  simp [State.writeIbuf, hb]

section
variable {s t : State} {i : Nat} {bytes : List Byte}
  (hibuf : t.ibuf = Memory.writeBytes s.ibuf i (s.bytesInIbuf i bytes))
include hibuf

/-- A byte of the write whose address IBUF has is stored there. -/
theorem State.ibufByte_writeBytes_inside {j : Nat} (hj : j < bytes.length) (hsize : i + j < s.params.ibufSize) :
    t.ibufByte (i + j) = bytes[j] := by
  have hcut : j < s.params.ibufSize - i := by omega
  have hin : i ≤ i + j ∧ i + j < i + (s.bytesInIbuf i bytes).length := by
    simp only [State.bytesInIbuf, List.length_take]
    omega
  rw [State.ibufByte, hibuf, Memory.lookup_writeBytes, if_pos hin, Nat.add_sub_cancel_left, State.bytesInIbuf,
    List.getElem?_take_of_lt hcut, List.getElem?_eq_getElem hj, Option.getD_some]

/-- Every byte outside the write, and every one IBUF does not have, keeps its value. -/
theorem State.ibufByte_writeBytes_outside {k : Nat} (hk : k < i ∨ i + bytes.length ≤ k ∨ s.params.ibufSize ≤ k) :
    t.ibufByte k = s.ibufByte k := by
  have hout : ¬ (i ≤ k ∧ k < i + (s.bytesInIbuf i bytes).length) := by
    simp only [State.bytesInIbuf, List.length_take]
    omega
  rw [State.ibufByte, hibuf, Memory.lookup_writeBytes, if_neg hout, State.ibufByte]

end

/-- Settles O51: the write stores the bytes of the data, lowest first, cut to those that fall on IBUF. -/
theorem ibufWriteLittleEndian : Obligations.IbufWriteLittleEndian := by
  intro a s hlegal hwe hregion hb
  have hwrite : hostAccess a s = s.writeIbuf a.offset (busBytes a.wdata 0 a.bytes) := by
    rw [hostAccess_write hlegal hwe, State.busWrite, hregion]
  refine ⟨_, hwrite.trans (State.writeIbuf_idle hb _ _), rfl, fun j hj hsize => ?_, fun i hi => ?_⟩
  · rw [State.ibufByte_writeBytes_inside rfl ((busBytes_length ..).symm ▸ hj) hsize, busBytes_getElem, Nat.zero_add,
      busByte]
  · exact State.ibufByte_writeBytes_outside rfl ((busBytes_length ..).symm ▸ hi)

/-! ## Reads of the buffer windows (R60, R64) -/

/-- The word read from a window of bytes: byte `j` in bits 8j+7 : 8j and every higher bit 0 (R64). -/
theorem assemble_windowBytes (byteAt : Nat → Byte) (i : Nat) {n : Nat} (hn : n ≤ 4) :
    (∀ j < n, (assemble (windowBytes byteAt i n)).extractLsb' (8 * j) 8 = byteAt (i + j)) ∧
      ∀ j < 32, 8 * n ≤ j → (assemble (windowBytes byteAt i n)).getLsbD j = false := by
  have hlen := windowBytes_length byteAt i n
  refine ⟨fun j hj => ?_, fun j _ hj => assemble_high _ j (hlen.symm ▸ hj)⟩
  rw [assemble_byte _ (hlen.symm ▸ hn) j (hlen.symm ▸ hj), windowBytes_getElem]

theorem State.readObuf_idle {s : State} (hb : s.busy = false) (i n : Nat) :
    s.readObuf i n = s.answerRead (assemble (windowBytes s.obufWindowByte i n)) := by
  simp [State.readObuf, hb]

/-- Settles O52: both windows are read by assembling their bytes, of which a legal access takes at most four. -/
theorem bufferReadsLittleEndian : Obligations.BufferReadsLittleEndian := by
  intro a s hlegal hwe
  have hbytes := BusAccess.bytes_le_four hlegal
  rw [hostAccess_read hlegal hwe, State.busRead]
  refine ⟨fun hregion => ?_, fun hregion hb => ?_⟩ <;> rw [hregion]
  · exact ⟨_, rfl, assemble_windowBytes s.ibufWindowByte a.offset hbytes⟩
  · exact ⟨_, congrArg _ (State.readObuf_idle hb _ _), assemble_windowBytes s.obufWindowByte a.offset hbytes⟩

/-! ## No read has a side effect (R69) -/

/-- A read of an idle block changes the answer only: it takes no draw (R69, R239). -/
theorem State.busRead_idle {s : State} (hb : s.busy = false) (a : BusAccess) : ∃ w, s.busRead a = s.answerRead w := by
  unfold State.busRead
  split
  · cases hreg : Reg.atOffset a.offset with
    | none => exact ⟨_, State.readReg_none hreg⟩
    | some r => exact ⟨_, State.readReg_idle hb hreg⟩
  · exact ⟨_, rfl⟩
  · exact ⟨_, State.readObuf_idle hb _ _⟩
  · exact ⟨_, rfl⟩

/-- On an idle block a read leaves a state in which the same read has the same result: no read depends on an earlier
answer. -/
theorem State.busRead_again {s : State} (hb : s.busy = false) (a : BusAccess) :
    (s.busRead a).busRead a = s.busRead a := by
  obtain ⟨w, hw⟩ := State.busRead_idle hb a
  calc (s.busRead a).busRead a = (s.answerRead w).busRead a := by rw [hw]
    _ = s.busRead a := rfl

/-- Settles O53: a read writes its answer and may take a draw, and on an idle block no read depends on either. -/
theorem readsHaveNoSideEffect : Obligations.ReadsHaveNoSideEffect := by
  intro a s hwe
  by_cases hlegal : a.legal = true
  · refine ⟨s.busRead a, hostAccess_read hlegal hwe, s.busRead_frame a, fun hb => ?_⟩
    rw [hostAccess_read hlegal hwe, State.busRead_again hb]
  · exact ⟨s.answerError a, hostAccess_illegal hlegal, rfl, fun _ => hostAccess_illegal hlegal⟩

end Sys2Proof.Machine

/-! # Scope: decode and encode agree (R80-R89), by the fields of a command word (R81) -/

namespace Sys2Proof

/-! ## The fields of a word (R81) -/

/-- The four fields of R81 cover the word. -/
theorem append_fields (w : Word) : fieldRsv w ++ fieldFmt w ++ fieldSym w ++ fieldOpc w = w := by
  have hhigh : fieldRsv w ++ fieldFmt w = w.extractLsb' 16 16 :=
    BitVec.extractLsb'_append_extractLsb'_eq_extractLsb' rfl
  have hmiddle : w.extractLsb' 16 16 ++ fieldSym w = w.extractLsb' 8 24 :=
    BitVec.extractLsb'_append_extractLsb'_eq_extractLsb' rfl
  calc fieldRsv w ++ fieldFmt w ++ fieldSym w ++ fieldOpc w
      = w.extractLsb' 8 24 ++ fieldOpc w := by rw [hhigh, hmiddle]
    _ = w.extractLsb' 0 32 := BitVec.extractLsb'_append_extractLsb'_eq_extractLsb' rfl
    _ = w := BitVec.extractLsb'_eq_self

/-- Words with the same fields are the same word. -/
theorem word_ext_iff {w v : Word} : w = v ↔
    fieldRsv w = fieldRsv v ∧ fieldFmt w = fieldFmt v ∧ fieldSym w = fieldSym v ∧ fieldOpc w = fieldOpc v := by
  refine ⟨fun h => by simp [h], fun ⟨hrsv, hfmt, hsym, hopc⟩ => ?_⟩
  rw [← append_fields w, hrsv, hfmt, hsym, hopc, append_fields]

section FieldsOfPackWord

variable (fmt : BitVec 1) (sym opc : BitVec 8)

@[simp] theorem fieldOpc_packWord : fieldOpc (packWord fmt sym opc) = opc := BitVec.extractLsb'_append_eq_right

@[simp] theorem fieldSym_packWord : fieldSym (packWord fmt sym opc) = sym := by
  rw [fieldSym, packWord, BitVec.extractLsb'_append_eq_of_le (Nat.le_refl 8)]
  exact BitVec.extractLsb'_append_eq_right

@[simp] theorem fieldFmt_packWord : fieldFmt (packWord fmt sym opc) = fmt := by
  rw [fieldFmt, packWord, BitVec.extractLsb'_append_eq_of_le (by decide),
    BitVec.extractLsb'_append_eq_of_le (by decide)]
  exact BitVec.extractLsb'_append_eq_right

@[simp] theorem fieldRsv_packWord : fieldRsv (packWord fmt sym opc) = 0 := by
  rw [fieldRsv, packWord, BitVec.extractLsb'_append_eq_of_le (by decide),
    BitVec.extractLsb'_append_eq_of_le (by decide)]
  exact BitVec.extractLsb'_append_eq_left

end FieldsOfPackWord

/-- The words of `packWord` are those with RSV = 0. -/
theorem eq_packWord_iff {w : Word} {fmt : BitVec 1} {sym opc : BitVec 8} : w = packWord fmt sym opc ↔
    fieldRsv w = 0 ∧ fieldFmt w = fmt ∧ fieldSym w = sym ∧ fieldOpc w = opc := by
  simp [word_ext_iff]

/-! ## FMT as a format (R83) -/

@[simp] theorem fmtOfBit_bit (fmt : Fmt) : fmtOfBit fmt.bit = fmt := by cases fmt <;> rfl

@[simp] theorem bit_fmtOfBit (b : BitVec 1) : (fmtOfBit b).bit = b := by
  rcases BitVec.eq_zero_or_eq_one b with rfl | rfl <;> rfl

/-- FMT is bit 16 of the word. -/
theorem fieldFmt_ne_zero_iff {w : Word} : fieldFmt w ≠ 0 ↔ w.getLsbD 16 = true := by
  have hbit : (fieldFmt w).getLsbD 0 = w.getLsbD 16 := by simp [fieldFmt]
  rw [← hbit]
  rcases BitVec.eq_zero_or_eq_one (fieldFmt w) with h | h <;> simp [h]

theorem fieldFmt_eq_bit_iff {w : Word} {fmt : Fmt} :
    fieldFmt w = fmt.bit ↔ (fmt = .ascii ↔ w.getLsbD 16 = true) := by
  rw [← fieldFmt_ne_zero_iff]
  rcases BitVec.eq_zero_or_eq_one (fieldFmt w) with h | h <;> cases fmt <;> simp [h, Fmt.bit]

/-! ## Decoding by the kind of the opcode -/

/-- What `decodeWord` can do with a word (R85-R88): reject it for RSV or for its opcode, or leave it to the check of its
opcode's kind, with the encoding of that opcode's commands. -/
inductive DecodeCase (w : Word) : Prop
  | reservedBits (hrsv : fieldRsv w ≠ 0) (hdecode : decodeWord w = .error .reservedBits)
  | reservedOpcode (hopc : 0x09 ≤ (fieldOpc w).toNat) (hdecode : decodeWord w = .error .reservedOpcode)
  | plain (i : Instr) (opc : BitVec 8) (hrsv : fieldRsv w = 0) (hopc : fieldOpc w = opc)
      (hkind : opc.toNat < 0x09 ∧ opc ≠ 0x04 ∧ opc ≠ 0x05 ∧ opc ≠ 0x08)
      (hencode : encodeWord i = packWord 0 0 opc) (hdecode : decodeWord w = decodePlain w i)
  | codec (i : Fmt → Instr) (opc : BitVec 8) (hrsv : fieldRsv w = 0) (hopc : fieldOpc w = opc)
      (hkind : opc = 0x04 ∨ opc = 0x05)
      (hencode : ∀ fmt, encodeWord (i fmt) = packWord fmt.bit 0 opc) (hdecode : decodeWord w = decodeCodec w i)
  | query (hrsv : fieldRsv w = 0) (hopc : fieldOpc w = 0x08) (hdecode : decodeWord w = decodeQuery w)

theorem decodeWord_cases (w : Word) : DecodeCase w := by
  by_cases hrsv : fieldRsv w = 0
  case neg => exact .reservedBits hrsv (if_pos hrsv)
  have hdecode := decodeWord.eq_1 w
  rw [if_neg (not_not_intro hrsv)] at hdecode
  split at hdecode
  case h_1 hopc => exact .plain .nop 0x00 hrsv (BitVec.eq_of_toNat_eq hopc) (by decide) rfl hdecode
  case h_2 hopc => exact .plain .clear 0x01 hrsv (BitVec.eq_of_toNat_eq hopc) (by decide) rfl hdecode
  case h_3 hopc => exact .plain .count 0x02 hrsv (BitVec.eq_of_toNat_eq hopc) (by decide) rfl hdecode
  case h_4 hopc => exact .plain .build 0x03 hrsv (BitVec.eq_of_toNat_eq hopc) (by decide) rfl hdecode
  case h_5 hopc => exact .codec .encode 0x04 hrsv (BitVec.eq_of_toNat_eq hopc) (by decide) (fun _ => rfl) hdecode
  case h_6 hopc => exact .codec .decode 0x05 hrsv (BitVec.eq_of_toNat_eq hopc) (by decide) (fun _ => rfl) hdecode
  case h_7 hopc => exact .plain .travStart 0x06 hrsv (BitVec.eq_of_toNat_eq hopc) (by decide) rfl hdecode
  case h_8 hopc => exact .plain .travNext 0x07 hrsv (BitVec.eq_of_toNat_eq hopc) (by decide) rfl hdecode
  case h_9 hopc => exact .query hrsv (BitVec.eq_of_toNat_eq hopc) hdecode
  case h_10 =>
    simp only [imp_false] at *
    exact .reservedOpcode (by omega) hdecode

/-! ## The checks of R83-R85 -/

section Checks

variable {w : Word}

theorem decodePlain_eq_ok_iff {i j : Instr} :
    decodePlain w i = .ok j ↔ fieldFmt w = 0 ∧ fieldSym w = 0 ∧ i = j := by
  unfold decodePlain
  split
  · simp_all
  · split <;> simp_all

theorem decodeCodec_eq_ok_iff {i : Fmt → Instr} {j : Instr} :
    decodeCodec w i = .ok j ↔ fieldSym w = 0 ∧ i (fmtOfBit (fieldFmt w)) = j := by
  unfold decodeCodec
  split <;> simp_all

theorem decodeQuery_eq_ok_iff {j : Instr} :
    decodeQuery w = .ok j ↔ fieldFmt w = 0 ∧ .query (fieldSym w) = j := by
  unfold decodeQuery
  split <;> simp_all

theorem decodePlain_error_iff {i : Instr} :
    (∃ r, decodePlain w i = .error r) ↔ fieldFmt w ≠ 0 ∨ fieldSym w ≠ 0 := by
  unfold decodePlain
  split
  · simp_all
  · split <;> simp_all

theorem decodeCodec_error_iff {i : Fmt → Instr} : (∃ r, decodeCodec w i = .error r) ↔ fieldSym w ≠ 0 := by
  unfold decodeCodec
  split <;> simp_all

theorem decodeQuery_error_iff : (∃ r, decodeQuery w = .error r) ↔ fieldFmt w ≠ 0 := by
  unfold decodeQuery
  split <;> simp_all

end Checks

/-! ## Decode and encode agree (R88) -/

theorem decodeWord_encodeWord (i : Instr) : decodeWord (encodeWord i) = .ok i := by
  cases i <;> simp [encodeWord, decodeWord, decodePlain, decodeCodec, decodeQuery]

theorem encodeWord_of_decodeWord {w : Word} {i : Instr} (h : decodeWord w = .ok i) : encodeWord i = w := by
  symm
  cases decodeWord_cases w with
  | reservedBits _ hdecode => cases hdecode.symm.trans h
  | reservedOpcode _ hdecode => cases hdecode.symm.trans h
  | plain i opc hrsv hopc _ hencode hdecode =>
    obtain ⟨hfmt, hsym, rfl⟩ := decodePlain_eq_ok_iff.mp (hdecode.symm.trans h)
    exact hencode ▸ eq_packWord_iff.mpr ⟨hrsv, hfmt, hsym, hopc⟩
  | codec i opc hrsv hopc _ hencode hdecode =>
    obtain ⟨hsym, rfl⟩ := decodeCodec_eq_ok_iff.mp (hdecode.symm.trans h)
    exact hencode _ ▸ eq_packWord_iff.mpr ⟨hrsv, (bit_fmtOfBit _).symm, hsym, hopc⟩
  | query hrsv hopc hdecode =>
    obtain ⟨hfmt, rfl⟩ := decodeQuery_eq_ok_iff.mp (hdecode.symm.trans h)
    exact eq_packWord_iff.mpr ⟨hrsv, hfmt, rfl, hopc⟩

theorem decodeWord_eq_ok_iff {w : Word} {i : Instr} : decodeWord w = .ok i ↔ w = encodeWord i :=
  ⟨fun h => (encodeWord_of_decodeWord h).symm, fun h => h ▸ decodeWord_encodeWord i⟩

/-- Settles O1: the decoder reads back every encoding, and the fields of an accepted word are those of its command's
encoding. -/
theorem decodeAcceptsExactlyEncodedWords : Obligations.DecodeAcceptsExactlyEncodedWords :=
  ⟨decodeWord_encodeWord, fun _ _ h => encodeWord_of_decodeWord h⟩

/-! ## The rows of the opcode map (R82) -/

theorem plainRow_iff {w : Word} {opc : BitVec 8} : w &&& 0xFFFFFFFF = packWord 0 0 opc ↔ w = packWord 0 0 opc := by
  rw [show w &&& 0xFFFFFFFF = w from BitVec.and_allOnes]

section FieldsOfMaskedWord

variable (w m : Word)

theorem fieldOpc_and : fieldOpc (w &&& m) = fieldOpc w &&& fieldOpc m := BitVec.extractLsb'_and
theorem fieldSym_and : fieldSym (w &&& m) = fieldSym w &&& fieldSym m := BitVec.extractLsb'_and
theorem fieldFmt_and : fieldFmt (w &&& m) = fieldFmt w &&& fieldFmt m := BitVec.extractLsb'_and
theorem fieldRsv_and : fieldRsv (w &&& m) = fieldRsv w &&& fieldRsv m := BitVec.extractLsb'_and

end FieldsOfMaskedWord

/-- A masked word field by field: each mask of R82 has all ones in RSV and OPC. -/
theorem and_mask_eq_packWord_iff {w m : Word} {fmt : BitVec 1} {sym opc : BitVec 8}
    (hrsv : fieldRsv m = BitVec.allOnes 15) (hopc : fieldOpc m = BitVec.allOnes 8) :
    w &&& m = packWord fmt sym opc ↔
      fieldRsv w = 0 ∧ fieldFmt w &&& fieldFmt m = fmt ∧ fieldSym w &&& fieldSym m = sym ∧ fieldOpc w = opc := by
  simp only [eq_packWord_iff, fieldRsv_and, fieldFmt_and, fieldSym_and, fieldOpc_and, hrsv, hopc, BitVec.and_allOnes]

theorem codecRow_iff {w : Word} {fmt : Fmt} {opc : BitVec 8} :
    w &&& 0xFFFEFFFF = packWord 0 0 opc ∧ (fmt = .ascii ↔ w.getLsbD 16 = true) ↔ w = packWord fmt.bit 0 opc := by
  have hfmt : fieldFmt w &&& fieldFmt 0xFFFEFFFF = 0 := BitVec.and_zero
  have hsym : fieldSym w &&& fieldSym 0xFFFEFFFF = fieldSym w := BitVec.and_allOnes
  rw [and_mask_eq_packWord_iff rfl rfl, hfmt, hsym, eq_packWord_iff, fieldFmt_eq_bit_iff]
  tauto

theorem queryRow_iff {w : Word} {sym : Sym} :
    w &&& 0xFFFF00FF = packWord 0 0 0x08 ∧ sym = w.extractLsb' 8 8 ↔ w = packWord 0 sym 0x08 := by
  have hfmt : fieldFmt w &&& fieldFmt 0xFFFF00FF = fieldFmt w := BitVec.and_allOnes
  have hsym : fieldSym w &&& fieldSym 0xFFFF00FF = 0 := BitVec.and_zero
  rw [and_mask_eq_packWord_iff rfl rfl, hfmt, hsym, eq_packWord_iff, eq_comm (a := sym), ← fieldSym]
  tauto

/-- Settles O2: a word decodes to a command exactly when it is the command's encoding, which is what its row says. -/
theorem decodeMatchesOpcodeMap : Obligations.DecodeMatchesOpcodeMap := fun _ =>
  ⟨decodeWord_eq_ok_iff.trans plainRow_iff.symm, decodeWord_eq_ok_iff.trans plainRow_iff.symm,
    decodeWord_eq_ok_iff.trans plainRow_iff.symm, decodeWord_eq_ok_iff.trans plainRow_iff.symm,
    fun _ => decodeWord_eq_ok_iff.trans codecRow_iff.symm, fun _ => decodeWord_eq_ok_iff.trans codecRow_iff.symm,
    decodeWord_eq_ok_iff.trans plainRow_iff.symm, decodeWord_eq_ok_iff.trans plainRow_iff.symm,
    fun _ => decodeWord_eq_ok_iff.trans queryRow_iff.symm⟩

/-! ## The illegal words (R85, R86) -/

/-- Settles O3: each kind of opcode checks the fields it does not use. -/
theorem illegalWordsAreExactlyThese : Obligations.IllegalWordsAreExactlyThese := by
  intro w
  rw [← fieldFmt_ne_zero_iff]
  change _ ↔ 0x09 ≤ (fieldOpc w).toNat ∨ fieldRsv w ≠ 0 ∨
    (fieldFmt w ≠ 0 ∧ fieldOpc w ≠ 0x04 ∧ fieldOpc w ≠ 0x05) ∨ (fieldSym w ≠ 0 ∧ fieldOpc w ≠ 0x08)
  cases decodeWord_cases w with
  | reservedBits hrsv hdecode => exact iff_of_true ⟨_, hdecode⟩ (.inr (.inl hrsv))
  | reservedOpcode hopc hdecode => exact iff_of_true ⟨_, hdecode⟩ (.inl hopc)
  | plain i opc hrsv hopc hkind _ hdecode =>
    have hdefined : ¬ 0x09 ≤ opc.toNat := Nat.not_le.mpr hkind.1
    rw [hdecode, decodePlain_error_iff, hopc]
    tauto
  | codec i opc hrsv hopc hkind _ hdecode =>
    rcases hkind with rfl | rfl <;> simp [hdecode, decodeCodec_error_iff, hrsv, hopc]
  | query hrsv hopc hdecode => simp [hdecode, decodeQuery_error_iff, hrsv, hopc]

/-! ## Sample words (R89) -/

/-- Settles O4: each sample word is the encoding of its command. -/
theorem sampleWordsDecode : Obligations.SampleWordsDecode :=
  ⟨decodeWord_encodeWord .nop, decodeWord_encodeWord .clear, decodeWord_encodeWord .count,
    decodeWord_encodeWord .build, decodeWord_encodeWord (.encode .packed), decodeWord_encodeWord (.encode .ascii),
    decodeWord_encodeWord (.decode .packed), decodeWord_encodeWord (.decode .ascii),
    decodeWord_encodeWord .travStart, decodeWord_encodeWord .travNext, decodeWord_encodeWord (.query 0x61)⟩

end Sys2Proof


/-! # Scope: the control of commands: acceptance (R100, R101), completion (R103-R105), NOP and CLEAR (R106, R107), and
what every step keeps of STATUS and the iterator (R39, R187) -/

namespace Sys2Proof.Machine

/-! ## A write to CMD (R100, R101) -/

theorem State.writeCmd_idle {s : State} (hb : s.busy = false) (w : Word) : s.writeCmd w = s.accept w := by
  rw [State.writeCmd, hb, if_neg Bool.false_ne_true]

theorem State.writeCmd_busy {s : State} (hb : s.busy = true) (w : Word) : s.writeCmd w = s.dropCommand := by
  rw [State.writeCmd, if_pos hb]

/-- A write of `w` to CMD, at any time (R22). -/
theorem hostAccess_writeCmd (s : State) (w : Word) :
    hostAccess ⟨true, 2, 0x00008, w⟩ s = .next (s.writeCmd w).answerWrite :=
  hostAccess_writeReg (off := 0x008) (by decide) rfl w s

/-- Settles O49: an idle block accepts the word and acknowledges it. -/
theorem commandAcceptance : Obligations.CommandAcceptance := by
  intro s w hb
  rw [hostAccess_writeCmd, State.writeCmd_idle hb]
  rfl

/-- Settles O50: a running block drops the word and acknowledges it. -/
theorem commandDroppedWhileBusy : Obligations.CommandDroppedWhileBusy := by
  intro s w hb
  have hdrop := hostAccess_writeCmd s w
  rw [State.writeCmd_busy hb] at hdrop
  exact ⟨_, hdrop, rfl, rfl, rfl⟩

/-! ## Completion (R103-R105) -/

/-- Every command answers a next state: its life ends in the error entry or in success (R102). -/
theorem exec_next (i : Instr) (s : State) : ∃ t, exec i s = .next t := by
  rw [exec_eq_runCommand]
  rcases runCommand_cases i (bodyOf i) s with ⟨_, -, hr⟩ | ⟨_, -, -, hr⟩ | ⟨_, -, -, hr⟩ <;> exact ⟨_, hr⟩

/-- Settles O7: a command ends with BUSY 0 and DONE 1 and keeps IE, so irq is IE. -/
theorem everyCommandCompletes : Obligations.EveryCommandCompletes := by
  intro i s
  obtain ⟨t, ht⟩ := exec_next i s
  obtain ⟨hbusy, hdone⟩ := exec_completes ht
  obtain ⟨-, hie, -⟩ := (exec_keeps ht).host
  exact ⟨t, ht, hbusy, hdone, by rw [State.irq, hdone, hie, Bool.true_and]⟩

/-- Settles O8: the access is the acceptance, and with no event left the next step is the engine's turn. -/
theorem acceptedCommandRunsToCompletion : Obligations.AcceptedCommandRunsToCompletion := by
  intro s w hb he
  have haccept : step s = .next (s.takeEvent.accept w).answerWrite := by
    rw [step_of_event (by rw [he]; rfl), ← State.writeCmd_idle (s := s.takeEvent) hb]
    exact hostAccess_writeCmd s.takeEvent w
  have hevents : (s.takeEvent.accept w).answerWrite.events = [] := congrArg List.tail he
  obtain ⟨u, hu, hbusy, hdone, -⟩ := engineTurn_completes (s := (s.takeEvent.accept w).answerWrite.takeEvent) rfl
  exact ⟨_, u, haccept, rfl, rfl, rfl, rfl, (step_eq_engineTurn (.inl hevents)).trans hu, hbusy, hdone⟩

/-! ## NOP and CLEAR (R106, R107) -/

/-- Settles O15: NOP passes the phase check and its body does nothing. -/
theorem nopOnlyCompletes : Obligations.NopOnlyCompletes := fun _ => runCommand_of_ok (i := .nop) rfl rfl

theorem State.ftAt_of_absent {s : State} (h : s.ft = Vector.replicate 256 FreqEntry.absent) (sym : Sym) :
    (s.ftAt sym).count = 0 ∧ (s.ftAt sym).rank = 0 := by
  simp [State.ftAt, h, FreqEntry.absent]

theorem State.resAt_of_zero {s : State} (h : s.res = Vector.replicate 10 0) (k : Nat) : s.resAt k = 0 := by
  rw [State.resAt, h, Vector.getElem?_replicate]
  split <;> rfl

/-- Settles O16: CLEAR passes the phase check and its body empties the tables. -/
theorem clearEmptiesTables : Obligations.ClearEmptiesTables := by
  intro s
  obtain ⟨u, hu⟩ : ∃ u, clearBody s = .ok u := ⟨_, rfl⟩
  have hexec : exec .clear s = .next u.succeed := runCommand_of_ok (i := .clear) rfl hu
  cases hu
  exact ⟨_, hexec, ⟨rfl, rfl, rfl, rfl⟩, State.ftAt_of_absent rfl, rfl, rfl, rfl, rfl, rfl, rfl,
    State.resAt_of_zero rfl, rfl, rfl, rfl, rfl, fun _ => rfl, fun _ => rfl⟩

/-! ## A failed command (R104, R211) -/

/-- No command writes ERRCODE except by the error entry (R103). -/
theorem bodyOf_errCode {i : Instr} {s u : State} (h : bodyOf i s = .ok u) : u.errCode = s.errCode := by
  cases hi : i.isCodec
  · rw [bodyOf_frame hi h]
  cases i with
  | encode fmt => obtain ⟨bits, -, rfl⟩ := encodeBody_ok h; rfl
  | decode fmt => obtain ⟨w, -, rfl⟩ := decodeBody_ok h; rfl
  | _ => cases hi

/-- Only ENCODE and DECODE scan their input for errors: COUNT's errors are its length pre-checks (R208). -/
theorem bodyOf_error_not_inScan {i : Instr} {s : State} {e : CmdError} (hi : i.isCodec = false)
    (h : bodyOf i s = .error e) : e.inScan = false := by
  cases i with
  | count =>
    replace h : countBody s = .error e := h
    unfold countBody at h
    split at h
    · cases h; rfl
    split at h <;> cases h
    rfl
  | travNext =>
    replace h : travNextBody s = .error e := h
    unfold travNextBody at h
    split at h <;> cases h
  | encode fmt => cases hi
  | decode fmt => cases hi
  | _ => cases h

/-- A command that turns ERRCODE from 0 to a code took the error entry, with an error of the input scan only if it is
ENCODE or DECODE (R104). -/
theorem exec_failed {i : Instr} {s t : State} (hs : s.errCode = .none) (h : exec i s = .next t)
    (ht : t.errCode ≠ .none) : ∃ e, t = s.raiseError i.isCodec e ∧ (i.isCodec = false → e.inScan = false) := by
  rcases exec_cases h with ⟨e, hp, rfl⟩ | ⟨e, -, hb, rfl⟩ | ⟨u, -, hu, rfl⟩
  · exact ⟨e, rfl, fun _ => phaseCheck_not_inScan hp⟩
  · exact ⟨e, rfl, fun hi => bodyOf_error_not_inScan hi hb⟩
  · exact absurd ((bodyOf_errCode hu).trans hs) ht

/-- The errors of the input scan, by code and position (R104). -/
theorem CmdError.inScan_iff (e : CmdError) :
    e.inScan = true ↔ e.code = .unknownSymbol ∨ e.code = .invalidBit ∨ e.code = .truncatedStream ∨
      (e.code = .capacityError ∧ e.info ≠ noPosition) := by
  unfold CmdError.inScan
  split <;> simp_all

section
variable (s : State) (codec : Bool) (e : CmdError)

@[simp] theorem State.raiseError_errCode : (s.raiseError codec e).errCode = e.code := rfl
@[simp] theorem State.raiseError_errpos : (s.raiseError codec e).errpos = e.info := rfl
@[simp] theorem State.raiseError_busy : (s.raiseError codec e).busy = false := rfl
@[simp] theorem State.raiseError_done : (s.raiseError codec e).done = true := rfl

@[simp] theorem State.raiseError_outLen : (s.raiseError codec e).outLen = if codec then 0 else s.outLen := by
  rw [State.raiseError_frame]

@[simp] theorem State.raiseError_outBits : (s.raiseError codec e).outBits = if codec then 0 else s.outBits := by
  rw [State.raiseError_frame]

/-- OBUF is a fresh draw after a failed input scan of ENCODE or DECODE, and kept after any other error (R104). -/
@[simp] theorem State.raiseError_obufByte (a : Nat) : (s.raiseError codec e).obufByte a =
    if codec && e.inScan then Config.freeObuf s.draws a else s.obufByte a := by
  rw [State.raiseError_frame]
  cases codec && e.inScan <;> rfl

/-- The iterator, the result registers and the decoder's walk keep the values they had before the command (R104). -/
theorem State.raiseError_discards : (s.raiseError codec e).tpos = s.tpos ∧ (s.raiseError codec e).res = s.res ∧
    (s.raiseError codec e).cur = s.cur ∧ (s.raiseError codec e).start = s.start := by
  rw [State.raiseError_frame]
  exact ⟨rfl, rfl, rfl, rfl⟩

end

/-- Settles O13: a failed command took the error entry, which draws OBUF afresh exactly after an error of the input
scan, and only ENCODE and DECODE have such errors. -/
theorem failedCommandDiscardsItsWrites : Obligations.FailedCommandDiscardsItsWrites := by
  intro i s t hs h ht
  obtain ⟨e, rfl, hscan⟩ := exec_failed hs h ht
  obtain ⟨-, hft, hnsym, htotal, hphase, hnode, hnnodes, hroot, hct⟩ := State.SameTables.raiseError s i.isCodec e
  obtain ⟨htpos, hres, hcur, hstart⟩ := s.raiseError_discards i.isCodec e
  refine ⟨hft, hnsym, htotal, hphase, hnode, hnnodes, hroot, hct, htpos, hres, hcur, hstart, rfl, rfl, fun hi => ?_,
    fun hi => ?_, fun hcause a => ?_, fun hcause a => ?_⟩
  · simp [hi]
  · simp [hi]
  · have hin : e.inScan = true := e.inScan_iff.2 (hcause.imp_right (.imp_right (.imp_right And.right)))
    have hcodec : i.isCodec = true := by
      by_contra hi
      rw [hscan (Bool.eq_false_iff.2 hi)] at hin
      cases hin
    simp [hin, hcodec]
  · have hout : e.inScan = false := by
      rw [State.raiseError_errCode, State.raiseError_errpos] at hcause
      rcases hcause with hcode | ⟨hcode, hinfo⟩
      · simp [CmdError.inScan, hcode]
      · simp [CmdError.inScan, hcode, hinfo, noPosition]
    simp [hout]

/-! ## Every step keeps DONE and ERRCODE 0 while BUSY = 1 -/

theorem State.StatusInv.of_idle {s : State} (h : s.busy = false) : s.StatusInv :=
  ⟨fun hb => absurd (h.symm.trans hb) Bool.false_ne_true, fun hb => absurd (h.symm.trans hb) Bool.false_ne_true⟩

theorem hostAccess_keeps_statusInv {a : BusAccess} {s t : State} (hs : s.StatusInv) (h : hostAccess a s = .next t) :
    t.StatusInv := by
  obtain ⟨hdone, herr⟩ := hs
  rcases hostAccess_cases h with rfl | rfl | rfl | rfl | rfl | rfl | ⟨-, rfl⟩ | ⟨-, rfl⟩ | ⟨i, bytes, rfl⟩
  · exact ⟨hdone, herr⟩
  · rw [State.busRead_frame]
    exact ⟨hdone, herr⟩
  · exact ⟨hdone, herr⟩
  · cases hb : s.busy with
    | false =>
      rw [State.writeCmd_idle hb]
      exact ⟨fun _ => rfl, fun _ => rfl⟩
    | true =>
      rw [State.writeCmd_busy hb]
      exact ⟨hdone, herr⟩
  · refine ⟨fun hb => ?_, herr⟩
    show (if a.wdata.getLsbD 1 then false else s.done) = false
    rw [hdone hb, ite_self]
  · exact ⟨hdone, herr⟩
  · exact ⟨hdone, herr⟩
  · exact ⟨hdone, herr⟩
  · exact ⟨hdone, herr⟩

/-- Only acceptance sets BUSY, and it clears DONE and ERRCODE; every completion and reset clear BUSY (R100-R105). -/
theorem step_keeps_statusInv {s t : State} (hs : s.StatusInv) (h : step s = .next t) : t.StatusInv :=
  step_keeps (P := State.StatusInv) (fun _ hu => ⟨hu.busy_done, hu.busy_errCode⟩)
    (fun _ _ _ hu hacc => hostAccess_keeps_statusInv hu hacc) (fun _ _ _ _ hexec => .of_idle (exec_completes hexec).1)
    (fun _ _ _ => .of_idle rfl) (fun _ _ => .of_idle rfl) hs h

/-! ## Every step keeps TPOS within bounds -/

/-- The iterator's invariant is about the phase, TPOS and NNODES only. -/
theorem State.IteratorInv.of_same {s t : State} (hs : s.IteratorInv) (hp : t.phase = s.phase) (ht : t.tpos = s.tpos)
    (hn : t.nnodes = s.nnodes) : t.IteratorInv where
  built_le := by rw [hp, ht, hn]; exact hs.built_le
  unbuilt_zero := by rw [hp, ht]; exact hs.unbuilt_zero

theorem State.IteratorInv.of_zero {s : State} (h : s.tpos = 0) : s.IteratorInv where
  built_le _ := by rw [h]; exact Nat.zero_le _
  unbuilt_zero _ := h

theorem State.IteratorInv.raiseError {s : State} (hs : s.IteratorInv) (codec : Bool) (e : CmdError) :
    (s.raiseError codec e).IteratorInv := by
  rw [State.raiseError_frame]
  exact hs.of_same rfl rfl rfl

/-- TRAV_NEXT advances TPOS below NNODES only, so it stays at most NNODES (R187). -/
theorem State.IteratorInv.of_travNextBody {s u : State} (hs : s.IteratorInv) (hphase : s.phase = .built)
    (h : travNextBody s = .ok u) : u.IteratorInv := by
  unfold travNextBody at h
  split at h <;> cases h
  · next hlt =>
    refine ⟨fun _ => ?_, fun hne => absurd hphase hne⟩
    show (s.tpos + 1).toNat ≤ s.nnodes.toNat
    bv_omega
  · exact hs.of_same rfl rfl rfl

/-- TRAV_NEXT passes the phase check in BUILT only (R108). -/
theorem phase_of_travNext_allowed {p : Phase} {w : Word} (h : phaseCheck .travNext p w = none) : p = .built := by
  cases p
  · cases h
  · cases h
  · rfl

theorem bodyOf_keeps_iteratorInv {i : Instr} {s u : State} (hs : s.IteratorInv)
    (hp : phaseCheck i s.phase s.lcmd = none) (h : bodyOf i s = .ok u) : u.IteratorInv := by
  have hkeeps := CommandKeeps.bodyOf h
  cases i with
  | clear => cases h; exact .of_zero rfl
  | count =>
    have hzero := hs.unbuilt_zero (phase_of_count_allowed hp)
    exact .of_zero ((hkeeps.tpos nofun nofun nofun nofun).trans hzero)
  | build => cases h; exact .of_zero rfl
  | travStart => cases h; exact .of_zero rfl
  | travNext => exact hs.of_travNextBody (phase_of_travNext_allowed hp) h
  | _ =>
    obtain ⟨-, hnnodes, -⟩ := hkeeps.tree nofun
    exact hs.of_same (hkeeps.phase nofun nofun nofun) (hkeeps.tpos nofun nofun nofun nofun) hnnodes

theorem exec_keeps_iteratorInv {i : Instr} {s t : State} (hs : s.IteratorInv) (h : exec i s = .next t) :
    t.IteratorInv := by
  rcases exec_cases h with ⟨e, -, rfl⟩ | ⟨e, -, -, rfl⟩ | ⟨u, hp, hu, rfl⟩
  · exact hs.raiseError _ e
  · exact hs.raiseError _ e
  · exact (bodyOf_keeps_iteratorInv hs hp hu).of_same rfl rfl rfl

theorem hostAccess_keeps_iteratorInv {a : BusAccess} {s t : State} (hs : s.IteratorInv)
    (h : hostAccess a s = .next t) : t.IteratorInv := by
  rw [hostAccess_frame h]
  exact hs.of_same rfl rfl rfl

/-- CLEAR, BUILD, TRAV_START and reset set TPOS to 0, TRAV_NEXT stops at NNODES, and NNODES changes with BUILD only
(R39, R187). -/
theorem step_keeps_iteratorInv {s t : State} (hs : s.IteratorInv) (h : step s = .next t) : t.IteratorInv :=
  step_keeps (P := State.IteratorInv) (fun _ hu => hu.of_same rfl rfl rfl)
    (fun _ _ _ hu hacc => hostAccess_keeps_iteratorInv hu hacc) (fun _ _ _ hu hexec => exec_keeps_iteratorInv hu hexec)
    (fun _ _ hu => hu.raiseError _ _) (fun _ _ => .of_zero rfl) hs h

/-- Settles O58: a step keeps each of the two invariants by itself. -/
theorem stepKeepsStatusAndIteratorInv : Obligations.StepKeepsStatusAndIteratorInv :=
  fun _ _ hstatus hiter h => ⟨step_keeps_statusInv hstatus h, step_keeps_iteratorInv hiter h⟩

end Sys2Proof.Machine

/-! # Scope: COUNT (R120-R122): the counts, the ranks by first occurrence, the capacities, and counting in chunks -/

namespace Sys2Proof.Machine

/-! ## When COUNT succeeds (R120) -/

/-- COUNT is allowed unless the tree is built (R108). -/
theorem phaseCheck_count_of_unbuilt {p : Phase} (h : p ≠ .built) (w : Word) : phaseCheck .count p w = none := by
  cases p
  · rfl
  · rfl
  · exact absurd rfl h

theorem countBody_of_fits {s : State} (hlen : s.len.toNat ≤ s.params.ibufSize)
    (htotal : s.total.toNat + s.len.toNat ≤ 2 ^ 32 - 1) :
    countBody s = .ok (s.countBytes s.inputBytes).collectIfAny := by
  rw [countBody, if_neg (not_lt.2 hlen), if_neg (not_lt.2 htotal)]

theorem countBody_of_exceeds {s : State}
    (h : s.params.ibufSize < s.len.toNat ∨ 2 ^ 32 - 1 < s.total.toNat + s.len.toNat) :
    countBody s = .error ⟨.capacityError, noPosition⟩ := by
  unfold countBody
  split
  · rfl
  · next hlen => rw [if_pos (h.resolve_left hlen)]

/-- Settles O20: either capacity check raises the error, and COUNT's error entry writes the status only. -/
theorem countCapacityError : Obligations.CountCapacityError :=
  ⟨rfl, fun _ hphase h =>
    runCommand_of_error (i := .count) (phaseCheck_count_of_unbuilt hphase _) (countBody_of_exceeds h)⟩

/-! ## States with the same counts -/

/-- `u` has the frequency table, NSYM and TOTAL of `s`. -/
structure State.SameCounts (u s : State) : Prop where
  ft : u.ft = s.ft
  nsym : u.nsym = s.nsym
  total : u.total = s.total

namespace State.SameCounts

variable {s t u : State}

theorem trans (h : u.SameCounts t) (h' : t.SameCounts s) : u.SameCounts s :=
  ⟨h.ft.trans h'.ft, h.nsym.trans h'.nsym, h.total.trans h'.total⟩

theorem symm (h : u.SameCounts s) : s.SameCounts u := ⟨h.ft.symm, h.nsym.symm, h.total.symm⟩

theorem withLen (s : State) (w : Word) : State.SameCounts { s with len := w } s := ⟨rfl, rfl, rfl⟩

theorem ftAt (h : u.SameCounts s) (sym : Sym) : u.ftAt sym = s.ftAt sym := by rw [State.ftAt, State.ftAt, h.ft]

/-- The invariants of FT are about FT, NSYM, TOTAL and the phase only (R42). -/
theorem freqInv (h : u.SameCounts s) (hphase : u.phase = s.phase) (hs : s.FreqInv) : u.FreqInv := by
  obtain ⟨hft, hnsym, htotal⟩ := h
  cases u; cases s; cases hft; cases hnsym; cases htotal; cases hphase
  exact ⟨hs.nsym_eq, hs.total_eq, hs.rank_lt, hs.rank_hit, hs.empty_iff⟩

theorem countByte (h : u.SameCounts s) (b : Byte) : (u.countByte b).SameCounts (s.countByte b) := by
  have hentry := h.ftAt b
  obtain ⟨hft, hnsym, htotal⟩ := h
  constructor <;> simp only [State.countByte, hentry, hft, hnsym, htotal]

/-- COUNT's loop reads FT, NSYM and TOTAL only. -/
theorem countBytes (h : u.SameCounts s) (input : List Byte) :
    (u.countBytes input).SameCounts (s.countBytes input) := by
  induction input generalizing s u with
  | nil => exact h
  | cons b input ih => exact ih (h.countByte b)

end State.SameCounts

/-- What a COUNT that fits does, from a table that meets R42: it succeeds with the counts of its loop, and leaves EMPTY
or COLLECT by whether a symbol is present (R120). -/
theorem exec_count_of_fits {s : State} {input : List Byte} (hs : s.FreqInv) (hphase : s.phase ≠ .built)
    (hin : s.inputBytes = input) (hlen : input.length ≤ s.params.ibufSize)
    (htotal : s.total.toNat + input.length ≤ 2 ^ 32 - 1) :
    ∃ t, exec .count s = .next t ∧ t.succeededFrom s ∧ t.params = s.params ∧
      t.SameCounts (s.countBytes input) ∧ t.phase = if t.nsym = 0 then .empty else .collect := by
  subst hin
  rw [State.inputBytes, State.ibufBytes_length] at hlen htotal
  obtain ⟨u, hu⟩ : ∃ u, countBody s = .ok u := ⟨_, countBody_of_fits hlen htotal⟩
  have hexec : exec .count s = .next u.succeed :=
    runCommand_of_ok (i := .count) (phaseCheck_count_of_unbuilt hphase _) hu
  have hcollect : u.phase = if u.nsym = 0 then .empty else .collect := by
    split
    · next hzero => exact (hs.of_countBody hu).empty_iff.2 hzero
    · next hpos => exact (countBody_phase hu).trans (if_neg hpos)
  have herr : u.errCode = s.errCode := bodyOf_errCode (i := .count) hu
  have hparams : u.params = s.params := by rw [countBody_frame hu]
  obtain ⟨-, -, rfl⟩ := countBody_ok hu
  exact ⟨_, hexec, ⟨herr, rfl, rfl, rfl⟩, hparams, ⟨rfl, rfl, rfl⟩, hcollect⟩

/-! ## The counts after COUNT's loop (R120) -/

theorem State.present_iff_pos (s : State) (x : Sym) : s.present x = true ↔ 0 < (s.ftAt x).count.toNat := by
  simp [State.present, Nat.pos_iff_ne_zero, ← BitVec.toNat_inj]

/-- COUNT's loop adds each symbol's occurrences to its count. -/
theorem State.CountsInv.countBytes_count {s : State} (hs : s.CountsInv) {input : List Byte}
    (ht : s.total.toNat + input.length < 2 ^ 32) (x : Sym) :
    ((s.countBytes input).ftAt x).count.toNat = (s.ftAt x).count.toNat + input.count x := by
  induction input generalizing s with
  | nil => rfl
  | cons b input ih =>
    rw [List.length_cons] at ht
    have hstep := State.countByte_total_toNat (s := s) b (by omega)
    have hrest : ((s.countBytes (b :: input)).ftAt x).count.toNat =
        ((s.countByte b).ftAt x).count.toNat + input.count x := ih (hs.countByte b (by omega)) (by omega)
    by_cases hx : x = b
    · subst hx
      rw [hrest, hs.countByte_count x (by omega), List.count_cons_self, Nat.add_right_comm, Nat.add_assoc]
    · rw [hrest, s.countByte_ftAt_ne hx, List.count_cons_of_ne (Ne.symm hx)]

/-- The symbols present after COUNT's loop are those present before and those of the input. -/
theorem State.CountsInv.countBytes_present {s : State} (hs : s.CountsInv) {input : List Byte}
    (ht : s.total.toNat + input.length < 2 ^ 32) (x : Sym) :
    (s.countBytes input).present x = true ↔ s.present x = true ∨ x ∈ input := by
  rw [State.present_iff_pos, State.present_iff_pos, hs.countBytes_count ht, ← List.count_pos_iff,
    Nat.add_pos_iff_pos_or_pos]

/-- Settles O17: the loop adds the occurrences and the length, and the invariants of FT that COUNT keeps give NSYM. -/
theorem countAddsOccurrences : Obligations.CountAddsOccurrences := by
  intro s data hs hphase hin hl hlen htotal
  obtain ⟨hcounts, -⟩ := s.freqInv_iff.1 hs
  have hlt : s.total.toNat + data.length < 2 ^ 32 := by omega
  obtain ⟨-, hsum⟩ := hcounts.countBytes data hlt
  obtain ⟨t, hexec, hsucc, -, hsame, hcollect⟩ :=
    exec_count_of_fits hs hphase (State.inputBytes_eq hin hl) (hl ▸ hlen) (hl ▸ htotal)
  refine ⟨t, hexec, hsucc, fun b => ?_, ?_, (exec_keeps_freqInv hs hexec).nsym_eq, hcollect⟩
  · rw [hsame.ftAt, hcounts.countBytes_count hlt]
  · rw [hsame.total, hsum]

/-! ## The ranks after COUNT's loop (R121) -/

/-- A symbol that is present keeps its rank through COUNT's loop. -/
theorem State.CountsInv.countBytes_rank_of_present {s : State} (hs : s.CountsInv) {input : List Byte}
    (ht : s.total.toNat + input.length < 2 ^ 32) {x : Sym} (hx : s.present x = true) :
    ((s.countBytes input).ftAt x).rank = (s.ftAt x).rank := by
  induction input generalizing s with
  | nil => rfl
  | cons b input ih =>
    rw [List.length_cons] at ht
    have hstep := State.countByte_total_toNat (s := s) b (by omega)
    have hpresent : (s.countByte b).present x = true :=
      (hs.countBytes_present (input := [b]) (by rw [List.length_singleton]; omega) x).2 (.inl hx)
    refine (ih (hs.countByte b (by omega)) (by omega) hpresent).trans ?_
    by_cases hb : x = b
    · subst hb
      exact BitVec.eq_of_toNat_eq ((hs.countByte_rank x).trans (if_pos hx))
    · rw [s.countByte_ftAt_ne hb]

/-- The present symbols after COUNT's loop are those before it and the new symbols of the input, each once. -/
theorem State.CountsInv.countBytes_presentSyms_perm {s : State} (hs : s.CountsInv) {input : List Byte}
    (ht : s.total.toNat + input.length < 2 ^ 32) :
    (s.countBytes input).presentSyms.Perm (s.presentSyms ++ (input.filter fun x => !s.present x).dedup) := by
  have hdisjoint : s.presentSyms.Disjoint (input.filter fun x => !s.present x).dedup := by
    intro x hold hnew
    rw [State.mem_presentSyms] at hold
    simp [hold] at hnew
  have hnodup (u : State) : u.presentSyms.Nodup := allSyms_nodup.filter _
  refine (List.perm_ext_iff_of_nodup (hnodup _) ((hnodup s).append (List.nodup_dedup _) hdisjoint)).2 fun x => ?_
  rw [State.mem_presentSyms, hs.countBytes_present ht, List.mem_append, State.mem_presentSyms]
  cases hx : s.present x <;> simp [hx]

/-- COUNT's loop raises NSYM by the number of distinct symbols of the input that were not present. -/
theorem State.CountsInv.countBytes_nsym {s : State} (hs : s.CountsInv) {input : List Byte}
    (ht : s.total.toNat + input.length < 2 ^ 32) :
    (s.countBytes input).nsym.toNat = s.nsym.toNat + (input.filter fun x => !s.present x).dedup.length := by
  obtain ⟨hinv, -⟩ := hs.countBytes input ht
  rw [hinv.nsym_eq, hs.nsym_eq, (hs.countBytes_presentSyms_perm ht).length_eq, List.length_append]

/-- A symbol first counted after the bytes `pre` takes the NSYM they left as its rank, and keeps it. -/
theorem State.CountsInv.countBytes_rank_of_first {s : State} (hs : s.CountsInv) {pre rest : List Byte} {x : Sym}
    (ht : s.total.toNat + (pre ++ x :: rest).length < 2 ^ 32) (hx : s.present x = false) (hpre : x ∉ pre) :
    ((s.countBytes (pre ++ x :: rest)).ftAt x).rank.toNat = (s.countBytes pre).nsym.toNat := by
  rw [List.length_append, List.length_cons] at ht
  obtain ⟨hinv, hsum⟩ := hs.countBytes pre (by omega)
  have habsent : (s.countBytes pre).present x = false := by
    rw [← Bool.not_eq_true, hs.countBytes_present (by omega), hx]
    simp [hpre]
  have hstep := State.countByte_total_toNat (s := s.countBytes pre) x (by omega)
  have hkept := (hinv.countByte x (by omega)).countBytes_rank_of_present (input := rest) (by omega)
    (hinv.countByte_present_same x (by omega))
  rw [State.countBytes_append]
  calc (((s.countBytes pre).countBytes (x :: rest)).ftAt x).rank.toNat
      = (((s.countBytes pre).countByte x).ftAt x).rank.toNat := congrArg BitVec.toNat hkept
    _ = (s.countBytes pre).nsym.toNat := by rw [hinv.countByte_rank, habsent, if_neg Bool.false_ne_true]

/-- Settles O18: a new symbol's rank is the NSYM left by the bytes before its first occurrence. -/
theorem countAssignsRanksByFirstOccurrence : Obligations.CountAssignsRanksByFirstOccurrence := by
  intro s data hs hphase hin hl hlen htotal
  obtain ⟨hcounts, -⟩ := s.freqInv_iff.1 hs
  have hlt : s.total.toNat + data.length < 2 ^ 32 := by omega
  obtain ⟨t, hexec, -, -, hsame, -⟩ :=
    exec_count_of_fits hs hphase (State.inputBytes_eq hin hl) (hl ▸ hlen) (hl ▸ htotal)
  refine ⟨t, hexec, fun b hb => ?_, fun b hmem hb => ?_⟩
  · rw [hsame.ftAt, hcounts.countBytes_rank_of_present hlt hb]
  obtain ⟨pre, rest, rfl, hpre⟩ := List.eq_append_cons_of_mem hmem
  have htake : (pre ++ b :: rest).takeWhile (fun x => x != b) = pre := by
    rw [List.takeWhile_append_of_pos fun x hx => bne_iff_ne.2 (ne_of_mem_of_not_mem hx hpre)]
    simp
  rw [hsame.ftAt, htake, ← hcounts.countBytes_nsym (by rw [List.length_append] at hlt; omega)]
  exact hcounts.countBytes_rank_of_first hlt hb hpre

/-! ## Counting in chunks (R122) -/

/-- The input of a COUNT with LEN `k`, by the IBUF bytes of another state from index `j` on. -/
theorem State.inputBytes_of_len {s u : State} {j k : Nat} (hlen : u.len = BitVec.ofNat 32 k) (hk : k < 2 ^ 32)
    (h : ∀ i < k, u.ibufByte i = s.ibufByte (j + i)) : u.inputBytes = s.ibufBytes j k := by
  have hlen' : u.len.toNat = k := by rw [hlen]; exact Nat.mod_eq_of_lt hk
  refine State.inputBytes_eq (fun i hi => ?_) (by rw [State.ibufBytes_length, hlen'])
  rw [State.ibufBytes_getElem, h i (by rwa [State.ibufBytes_length] at hi)]

theorem State.FreqInv.withLen {s : State} (hs : s.FreqInv) (w : Word) : State.FreqInv { s with len := w } :=
  (State.SameCounts.withLen s w).freqInv rfl hs

/-- COUNT of the first `k` bytes of IBUF. -/
theorem exec_count_prefix {s : State} {k : Nat} (hs : s.FreqInv) (hlegal : s.params.legal = true)
    (hphase : s.phase ≠ .built) (hlen : k ≤ s.params.ibufSize) (htotal : s.total.toNat + k ≤ 2 ^ 32 - 1) :
    ∃ t, exec .count { s with len := BitVec.ofNat 32 k } = .next t ∧ t.params = s.params ∧
      t.SameCounts (s.countBytes (s.ibufBytes 0 k)) ∧ t.phase = if t.nsym = 0 then .empty else .collect := by
  obtain ⟨-, hsize, -, -⟩ := (Params.legal_iff s.params).1 hlegal
  have hlength := s.ibufBytes_length 0 k
  have hin : State.inputBytes { s with len := BitVec.ofNat 32 k } = s.ibufBytes 0 k :=
    State.inputBytes_of_len rfl (by omega) fun i _ => congrArg s.ibufByte (Nat.zero_add i).symm
  obtain ⟨t, hexec, -, hparams, hcounts, hcollect⟩ := exec_count_of_fits (hs.withLen (BitVec.ofNat 32 k)) hphase hin
    (hlength.trans_le hlen) (by rw [hlength]; exact htotal)
  exact ⟨t, hexec, hparams, hcounts.trans ((State.SameCounts.withLen s _).countBytes _), hcollect⟩

/-- Settles O19: COUNT's loop over a concatenation is the loop over the one part, then over the other, and the phase
follows from NSYM. -/
theorem countInChunksEqualsOneCount : Obligations.CountInChunksEqualsOneCount := by
  intro s u t₁ m n hs hlegal hphase hsize htotal h₁ hparams hft hnsym hsum hphase' hlen hin
  obtain ⟨-, hsize', -, -⟩ := (Params.legal_iff s.params).1 hlegal
  obtain ⟨hcounts, -⟩ := s.freqInv_iff.1 hs
  obtain ⟨t₁', h₁', hparams₁, hcounts₁, hcollect₁⟩ :=
    exec_count_prefix (k := m) hs hlegal hphase (by omega) (by omega)
  obtain rfl : t₁ = t₁' := Host.Outcome.next.inj (h₁.symm.trans h₁')
  have hsame : u.SameCounts t₁ := ⟨hft, hnsym, hsum⟩
  have hinv : u.FreqInv := hsame.freqInv hphase' (exec_keeps_freqInv (hs.withLen _) h₁)
  have hunbuilt : u.phase ≠ .built := by
    rw [hphase', hcollect₁]
    split <;> nofun
  have htotal₁ : u.total.toNat = s.total.toNat + m := by
    obtain ⟨-, hadd⟩ := hcounts.countBytes (s.ibufBytes 0 m) (by rw [State.ibufBytes_length]; omega)
    rw [hsum, hcounts₁.total, hadd, State.ibufBytes_length]
  have hlength := s.ibufBytes_length m n
  obtain ⟨t₂, h₂, -, -, hcounts₂, hcollect₂⟩ := exec_count_of_fits hinv hunbuilt
    (State.inputBytes_of_len hlen (by omega) hin) (by rw [hparams, hparams₁]; omega) (by omega)
  obtain ⟨t, h, -, hall, hcollect⟩ := exec_count_prefix (k := m + n) hs hlegal hphase hsize htotal
  rw [State.ibufBytes_append, Nat.zero_add, State.countBytes_append] at hall
  have heq : t₂.SameCounts t := hcounts₂.trans (((hsame.trans hcounts₁).countBytes _).trans hall.symm)
  exact ⟨t₂, t, h₂, h, heq.ft, heq.nsym, heq.total, by rw [hcollect₂, hcollect, heq.nsym]⟩

end Sys2Proof.Machine

/-! # Scope: BUILD (R130-R141): the tree it leaves, its selections and those of the stable sort, its determinism, the
one-symbol tree, and that no other command writes the tree -/

namespace Sys2Proof.Machine

/-! ## BUILD as a command (R108, R130) -/

theorem exec_build_of_collect {s : State} (hphase : s.phase = .collect) :
    exec .build s = .next s.afterBuild.succeed :=
  runCommand_of_ok (i := .build) (by rw [hphase]; rfl) (buildBody_eq s)

section
variable {s : State} (hs : s.FreqInv) (hphase : s.phase = .collect)
include hs hphase

theorem State.FreqInv.afterBuild : s.afterBuild.FreqInv := hs.of_buildBody hphase (buildBody_eq s)

theorem State.FreqInv.built_shape : s.afterBuild.TreeShape := hs.afterBuild_shape (by rw [hphase]; decide)

theorem State.FreqInv.built_codes : s.afterBuild.CodePaths :=
  (hs.built_shape hphase).codePaths (hs.afterBuild hphase) nofun rfl

end

/-- Settles O21: BUILD's body runs in COLLECT and leaves the tree of R45, and its completion writes the status only. -/
theorem buildYieldsTree : Obligations.BuildYieldsTree := fun s hs hphase =>
  ⟨_, exec_build_of_collect hphase, ⟨rfl, rfl, rfl, rfl⟩, rfl, rfl, rfl, rfl, rfl,
    (State.SameTables.succeed s.afterBuild).treeShape (hs.built_shape hphase)⟩

/-- Settles O42: the frame of every command but BUILD keeps the tree, and BUILD fails its phase check in BUILT. -/
theorem treeImmutableWhileBuilt : Obligations.TreeImmutableWhileBuilt := by
  refine ⟨fun i s t hi h => (exec_keeps h).tree hi, fun s hphase => ?_⟩
  have hcheck : phaseCheck .build s.phase s.lcmd = some ⟨.buildError, s.lcmd⟩ := by rw [hphase]; rfl
  obtain ⟨-, -, -, -, hkept, hnode, hnnodes, hroot, hct⟩ :=
    State.SameTables.raiseError s Instr.build.isCodec ⟨.buildError, s.lcmd⟩
  have hexec : exec .build s = .next (s.raiseError Instr.build.isCodec ⟨.buildError, s.lcmd⟩) :=
    (exec_eq_runCommand .build s).trans (runCommand_of_check hcheck)
  exact ⟨_, hexec, rfl, hnode, hnnodes, hroot, hct, hkept.trans hphase⟩

/-! ## The one-symbol tree (R136) -/

/-- The only symbol has rank 0 (R42). -/
theorem State.FreqInv.rank_eq_zero {s : State} {sym : Sym} (hs : s.FreqInv) (hn : s.nsym = 1)
    (hp : s.present sym = true) : (s.ftAt sym).rank.toNat = 0 := by
  have hlt := hs.rank_lt sym hp
  rw [hn] at hlt
  exact Nat.lt_one_iff.1 hlt

/-- With one symbol present, no other symbol is: both would have rank 0 (R42). -/
theorem State.FreqInv.absent_of_ne {s : State} {sym x : Sym} (hs : s.FreqInv) (hn : s.nsym = 1)
    (hp : s.present sym = true) (hne : x ≠ sym) : s.present x = false := by
  by_contra hx
  rw [Bool.not_eq_false] at hx
  exact hne (hs.rank_inj hx hp ((hs.rank_eq_zero hn hx).trans (hs.rank_eq_zero hn hp).symm))

/-- A path from the root of the one-symbol tree to its leaf is the single bit 0: bit 1 leads to VOID, where no path goes
on (R136). -/
theorem State.oneSymbolTree_path_to_leaf {s : State} {p : List Bool}
    (h : follow s.oneSymbolTree.nodes 2 p = some 0) : p = [false] := by
  have hroot : (nodeAt s.oneSymbolTree.nodes 2).kind = .internal := by rw [s.oneSymbolTree_root]
  cases p with
  | nil => cases h
  | cons b p =>
    rw [follow, if_pos hroot, s.oneSymbolTree_root] at h
    cases b with
    | false =>
      cases p with
      | nil => rfl
      | cons c p =>
        change follow _ 0 (c :: p) = _ at h
        rw [follow, s.oneSymbolTree_leaf] at h
        cases h
    | true =>
      cases p with
      | nil => cases h
      | cons c p =>
        change follow _ 1 (c :: p) = _ at h
        rw [follow, s.oneSymbolTree_void] at h
        cases h

/-- Settles O25: the tree is the one-symbol tree, and the symbol's code is a path from its root to its leaf. -/
theorem buildWrapsOneSymbol : Obligations.BuildWrapsOneSymbol := by
  intro s sym hs hphase hn hp
  have hshape := hs.built_shape hphase
  have htree : s.builtTree = s.oneSymbolTree := if_pos hn
  have hnode : s.afterBuild.node = s.oneSymbolTree.nodes := congrArg Tree.nodes htree
  have hroot : s.afterBuild.root = 2 := congrArg Tree.root htree
  have hcodes := hs.built_codes hphase
  have hrank := hs.rank_eq_zero hn hp
  have hleaf := hs.leafOfRank_rank hp
  rw [hrank] at hleaf
  have hinner := s.oneSymbolTree_root
  rw [hleaf] at hinner
  have hpath := hcodes.path sym hp
  rw [hnode, hroot] at hpath
  refine ⟨_, exec_build_of_collect hphase, hroot, congrArg Tree.nnodes htree, ?_, ?_, ?_, ?_, ?_, ?_, fun x hx => ?_⟩
  · exact (congrArg (nodeAt · 0) hnode).trans (s.oneSymbolTree_leaf.trans hleaf)
  · exact (congrArg (nodeAt · 1) hnode).trans s.oneSymbolTree_void
  · exact (congrArg (nodeAt · 2) hnode).trans hinner
  · have hfreq := hshape.rootFreq
    rw [hnode, hroot] at hfreq
    exact (congrArg Node.freq hinner).symm.trans hfreq
  · change follow s.afterBuild.node 2 [true] = some 1
    rw [hnode, follow, if_pos (by rw [hinner]), hinner]
    rfl
  · exact State.oneSymbolTree_path_to_leaf (hpath.trans (congrArg some hrank))
  · exact congrArg CodeEntry.cbits (hcodes.absent x (hs.absent_of_ne hn hp hx))

/-! ## Keys (R134) -/

/-- `key(id)`, ordered lexicographically (R134). -/
def nodeKey (nodes : Arena) (id : Nat) : Nat ×ₗ Nat := toLex ((nodeAt nodes id).freq.toNat, id)

theorem nodeKey_lt_iff {nodes : Arena} {i j : Nat} :
    nodeKey nodes i < nodeKey nodes j ↔
      (nodeAt nodes i).freq.toNat < (nodeAt nodes j).freq.toNat ∨
        ((nodeAt nodes i).freq.toNat = (nodeAt nodes j).freq.toNat ∧ i < j) :=
  Prod.Lex.toLex_lt_toLex

theorem keyLt_iff {nodes : Arena} {i j : Nat} : keyLt nodes i j = true ↔ nodeKey nodes i < nodeKey nodes j := by
  simp [keyLt, nodeKey_lt_iff, BitVec.toNat_inj]

theorem State.keyBefore_iff {s : State} {i j : Nat} : s.keyBefore i j ↔ nodeKey s.node i < nodeKey s.node j :=
  nodeKey_lt_iff.symm

/-- Ids are distinct, so keys are (R134). -/
theorem nodeKey_injective (nodes : Arena) : Function.Injective (nodeKey nodes) := fun _ _ h =>
  congrArg (fun k => (ofLex k).2) h

theorem nodeKey_lt_of_le {nodes : Arena} {i j : Nat} (h : nodeKey nodes i ≤ nodeKey nodes j) (hne : i ≠ j) :
    nodeKey nodes i < nodeKey nodes j :=
  lt_of_le_of_ne h ((nodeKey_injective nodes).ne hne)

theorem nodeKey_congr {nodes nodes' : Arena} {id : Nat} (h : nodeAt nodes id = nodeAt nodes' id) :
    nodeKey nodes id = nodeKey nodes' id := by
  rw [nodeKey, nodeKey, h]

/-! ## The selection (R132, R134, R135) -/

/-- No waiting node has a key below the least (R134). -/
theorem leastKey_le {nodes : Arena} {w : List Nat} {a : Nat} (h : leastKey nodes w = some a) :
    ∀ x ∈ w, nodeKey nodes a ≤ nodeKey nodes x := by
  induction w generalizing a with
  | nil => nofun
  | cons i w ih =>
    refine List.forall_mem_cons.2 ?_
    unfold leastKey at h
    split at h
    · next hnone =>
      cases h
      refine ⟨le_rfl, fun x hx => ?_⟩
      obtain ⟨y, hy⟩ := leastKey_isSome (nodes := nodes) (List.ne_nil_of_mem hx)
      cases hnone.symm.trans hy
    · next j hj =>
      split at h <;> cases h
      · next hlt => exact ⟨(keyLt_iff.1 hlt).le, ih hj⟩
      · next hge =>
        have hle := not_lt.1 fun hlt => hge (keyLt_iff.2 hlt)
        exact ⟨le_rfl, fun x hx => hle.trans (ih hj x hx)⟩

/-- "the id in W with the least key(id)" is unique (R134). -/
theorem leastKey_eq {nodes : Arena} {w : List Nat} {a : Nat} (ha : a ∈ w)
    (hle : ∀ x ∈ w, nodeKey nodes a ≤ nodeKey nodes x) : leastKey nodes w = some a := by
  obtain ⟨y, hy⟩ := leastKey_isSome (nodes := nodes) (List.ne_nil_of_mem ha)
  have heq : y = a := nodeKey_injective nodes (le_antisymm (leastKey_le hy a ha) (hle y (leastKey_mem hy)))
  rw [hy, heq]

/-- The first of the waiting nodes, in an order that puts it below the others, is selected. -/
theorem leastKey_of_perm_cons {nodes : Arena} {w rest : List Nat} {a : Nat} (hperm : w.Perm (a :: rest))
    (hlt : ∀ x ∈ rest, nodeKey nodes a < nodeKey nodes x) :
    leastKey nodes w = some a ∧ (w.erase a).Perm rest := by
  have hle : ∀ x ∈ a :: rest, nodeKey nodes a ≤ nodeKey nodes x :=
    List.forall_mem_cons.2 ⟨le_rfl, fun x hx => (hlt x hx).le⟩
  exact ⟨leastKey_eq (hperm.mem_iff.2 List.mem_cons_self) fun x hx => hle x (hperm.mem_iff.1 hx),
    by simpa using hperm.erase a⟩

/-- Of a working set that is, in some order, a list of rising keys, the first two elements are selected, in this order
(R135). -/
theorem leastKey_of_sorted {nodes : Arena} {w rest : List Nat} {a b : Nat} (hperm : w.Perm (a :: b :: rest))
    (hsorted : (a :: b :: rest).Pairwise fun i j => nodeKey nodes i < nodeKey nodes j) :
    leastKey nodes w = some a ∧ leastKey nodes (w.erase a) = some b ∧ ((w.erase a).erase b).Perm rest := by
  obtain ⟨hlta, hrest⟩ := List.pairwise_cons.1 hsorted
  obtain ⟨hltb, -⟩ := List.pairwise_cons.1 hrest
  obtain ⟨ha, hperm'⟩ := leastKey_of_perm_cons hperm hlta
  exact ⟨ha, leastKey_of_perm_cons hperm' hltb⟩

theorem leastKey_perm {nodes : Arena} {w : List Nat} {a b : Nat} (ha : leastKey nodes w = some a)
    (hb : leastKey nodes (w.erase a) = some b) : w.Perm (a :: b :: (w.erase a).erase b) :=
  (List.perm_cons_erase (leastKey_mem ha)).trans ((List.perm_cons_erase (leastKey_mem hb)).cons a)

theorem mergeLoop_of_leastKey {nodes : Arena} {w : List Nat} {a b : Nat} (ha : leastKey nodes w = some a)
    (hb : leastKey nodes (w.erase a) = some b) (merges next : Nat) :
    mergeLoop (merges + 1) nodes w next =
      mergeLoop merges (setNode nodes next (mergedNode nodes a b)) (((w.erase a).erase b) ++ [next]) (next + 1) := by
  simp [mergeLoop, ha, hb]

/-! ## Runs of BUILD's loop -/

/-- A run of BUILD's loop on the table of `s`, merge by merge, each pass from a state of the loop that meets its
invariant (R130, R132). -/
inductive MergeRun (s : State) : (merges : Nat) → Arena → (w : List Nat) → (next : Nat) → Prop where
  /-- one node waits: the loop is over -/
  | done {merges : Nat} {nodes : Arena} {root next : Nat} :
      MergeInv s nodes [root] next → MergeRun s merges nodes [root] next
  /-- the two least keys are merged, and the loop goes on -/
  | merge {merges : Nat} {nodes : Arena} {w : List Nat} {next a b : Nat} :
      MergeInv s nodes w next → leastKey nodes w = some a → leastKey nodes (w.erase a) = some b →
      MergeRun s merges (setNode nodes next (mergedNode nodes a b)) ((w.erase a).erase b ++ [next]) (next + 1) →
      MergeRun s (merges + 1) nodes w next

section
variable {s : State} {nodes nodes' : Arena} {w : List Nat} {merges next a b : Nat}

/-- BUILD's loop runs to its end (R132). -/
theorem MergeInv.run (h : MergeInv s nodes w next) (hn : s.nsym.toNat ≤ 256) (hmerges : w.length ≤ merges + 1) :
    MergeRun s merges nodes w next := by
  induction merges generalizing nodes w next with
  | zero =>
    obtain ⟨rfl, -⟩ := h.eq_root hmerges
    exact .done h
  | succ merges ih =>
    by_cases hw : w.length ≤ 1
    · obtain ⟨rfl, -⟩ := h.eq_root hw
      exact .done h
    · obtain ⟨a, b, ha, hb, -⟩ := mergeLoop_succ (merges := merges) (nodes := nodes) (next := next) (not_le.1 hw)
      have hperm := leastKey_perm ha hb
      have hlen := hperm.length_eq
      refine .merge h ha hb (ih (h.merge hn hperm) ?_)
      simp only [List.length_cons, List.length_append, List.length_nil] at hlen ⊢
      omega

/-- From the leaves of two or more symbols, BUILD's loop runs to the tree BUILD leaves (R130). -/
theorem State.FreqInv.build_run (hs : s.FreqInv) (hn : 2 ≤ s.nsym.toNat) :
    MergeRun s s.nsym.toNat (s.placeLeaves s.nsym.toNat) (List.range s.nsym.toNat) s.nsym.toNat ∧
      mergeLoop s.nsym.toNat (s.placeLeaves s.nsym.toNat) (List.range s.nsym.toNat) s.nsym.toNat =
        (s.afterBuild.node, [s.afterBuild.root.toNat]) := by
  have hzero : s.nsym ≠ 0 := by rintro h; rw [h] at hn; exact absurd hn (by decide)
  have hone : s.nsym ≠ 1 := by rintro h; rw [h] at hn; exact absurd hn (by decide)
  have hleaves := MergeInv.of_leaves hs hzero
  refine ⟨hleaves.run hs.nsym_le (by simp), ?_⟩
  obtain ⟨made, hloop, -⟩ := hleaves.mergeLoop (merges := s.nsym.toNat) hs.nsym_le (by simp)
  obtain ⟨-, hroot⟩ := (hs.mergedTree_shape hn).many hn
  have hnode : s.afterBuild.node = (s.mergedTree s.nsym.toNat).nodes := congrArg Tree.nodes (if_neg hone)
  rw [hloop, hroot, hnode, State.mergedTree, hloop]
  rfl

/-! ## The original strategy (R139) -/

/-- The order of the stable sort in `sortedMergeLoop`: by FREQ (R139). -/
def freqLe (nodes : Arena) (i j : Nat) : Bool :=
  decide ((nodeAt nodes i).freq.toNat ≤ (nodeAt nodes j).freq.toNat)

/-- "nodes of equal FREQ stay in id order" (R139). -/
def TiesInIdOrder (nodes : Arena) (w : List Nat) : Prop :=
  w.Pairwise fun i j => (nodeAt nodes i).freq.toNat = (nodeAt nodes j).freq.toNat → i < j

theorem sortedMergeLoop_of_sort {v rest : List Nat} (h : v.mergeSort (freqLe nodes) = a :: b :: rest) :
    sortedMergeLoop (merges + 1) nodes v next =
      sortedMergeLoop merges (setNode nodes next (mergedNode nodes a b)) (rest ++ [next]) (next + 1) := by
  unfold freqLe at h
  simp [sortedMergeLoop, h]

theorem sortedMergeLoop_singleton (merges : Nat) (nodes : Arena) (x next : Nat) :
    sortedMergeLoop merges nodes [x] next = (nodes, [x]) := by
  cases merges <;> simp [sortedMergeLoop]

theorem freqLe_trans (i j k : Nat) (hij : freqLe nodes i j = true) (hjk : freqLe nodes j k = true) :
    freqLe nodes i k = true :=
  decide_eq_true ((of_decide_eq_true hij).trans (of_decide_eq_true hjk))

theorem freqLe_total (i j : Nat) : (freqLe nodes i j || freqLe nodes j i) = true := by
  simp [freqLe, Nat.le_total]

/-- The sort is stable: the nodes of one FREQ stay in their order. -/
theorem filter_freq_mergeSort (nodes : Arena) (v : List Nat) (f : Nat) :
    (v.mergeSort (freqLe nodes)).filter (fun x => (nodeAt nodes x).freq.toNat = f) =
      v.filter fun x => (nodeAt nodes x).freq.toNat = f := by
  have htied : (v.filter fun x => (nodeAt nodes x).freq.toNat = f).Pairwise fun i j => freqLe nodes i j = true :=
    List.pairwise_of_forall_mem_list fun i hi j hj => by
      rw [List.mem_filter, decide_eq_true_iff] at hi hj
      exact decide_eq_true (hi.2.trans hj.2.symm).le
  have hsub := (List.sublist_mergeSort freqLe_trans freqLe_total htied List.filter_sublist).filter
    fun x => (nodeAt nodes x).freq.toNat = f
  simp only [List.filter_filter, Bool.and_self] at hsub
  exact (hsub.eq_of_length ((List.mergeSort_perm v _).filter _).length_eq.symm).symm

/-- Sorted by FREQ with a stable sort, a list with ties in id order is sorted by key (R139). -/
theorem TiesInIdOrder.sorted {v : List Nat} (h : TiesInIdOrder nodes v) :
    (v.mergeSort (freqLe nodes)).Pairwise fun i j => nodeKey nodes i < nodeKey nodes j := by
  refine List.pairwise_iff_forall_sublist.2 fun {i j} hij => nodeKey_lt_iff.2 ?_
  have hle := of_decide_eq_true
    (List.pairwise_iff_forall_sublist.1 (List.pairwise_mergeSort freqLe_trans freqLe_total v) hij)
  rcases hle.lt_or_eq with hlt | heq
  · exact .inl hlt
  · refine .inr ⟨heq, List.pairwise_iff_forall_sublist.1 h ?_ heq⟩
    have hsub := hij.filter fun x => (nodeAt nodes x).freq.toNat = (nodeAt nodes j).freq.toNat
    rw [filter_freq_mergeSort, List.filter_eq_self.2 (by simp [heq])] at hsub
    exact hsub.trans List.filter_sublist

/-- Appending the newest node to what a selection left keeps ties in id order (R133, R139). -/
theorem TiesInIdOrder.append_newest {rest : List Nat} (v : Node) (hlt : ∀ x ∈ rest, x < next)
    (hsorted : rest.Pairwise fun i j => nodeKey nodes i < nodeKey nodes j) :
    TiesInIdOrder (setNode nodes next v) (rest ++ [next]) := by
  refine List.pairwise_append.2 ⟨hsorted.imp_of_mem fun {i j} hi hj hkey heq => ?_, List.pairwise_singleton _ _,
    fun x hx y hy _ => List.mem_singleton.1 hy ▸ hlt x hx⟩
  rw [nodeAt_setNode_ne _ _ (hlt i hi).ne, nodeAt_setNode_ne _ _ (hlt j hj).ne] at heq
  rcases nodeKey_lt_iff.1 hkey with hfreq | ⟨-, hid⟩
  · exact absurd heq hfreq.ne
  · exact hid

/-- From the same waiting nodes, with ties in id order, the original strategy makes the selections of BUILD's loop
(R139). -/
theorem MergeRun.sortedMergeLoop_eq (h : MergeRun s merges nodes w next) (hn : s.nsym.toNat ≤ 256) {v : List Nat}
    (hperm : v.Perm w) (hties : TiesInIdOrder nodes v) :
    sortedMergeLoop merges nodes v next = mergeLoop merges nodes w next := by
  induction h generalizing v with
  | done hinv => rw [List.perm_singleton.1 hperm, sortedMergeLoop_singleton, mergeLoop_singleton]
  | @merge merges nodes w next a b hinv ha hb hrun ih =>
    have hsorted := hties.sorted
    have hsort : w.Perm (v.mergeSort (freqLe nodes)) := hperm.symm.trans (List.mergeSort_perm v _).symm
    have hlen : (v.mergeSort (freqLe nodes)).length = ((w.erase a).erase b).length + 2 :=
      hsort.length_eq.symm.trans (leastKey_perm ha hb).length_eq
    match hv : v.mergeSort (freqLe nodes), hlen with
    | a' :: b' :: rest, _ =>
      rw [hv] at hsorted hsort
      obtain ⟨ha', hb', hrest⟩ := leastKey_of_sorted hsort hsorted
      obtain rfl : a = a' := Option.some.inj (ha.symm.trans ha')
      obtain rfl : b = b' := Option.some.inj (hb.symm.trans hb')
      obtain ⟨⟨-, -, hlt⟩, -⟩ := hinv.pair hn hsort
      rw [sortedMergeLoop_of_sort hv, mergeLoop_of_leastKey ha hb]
      exact ih (hrest.symm.append_right _)
        (.append_newest _ hlt (List.pairwise_cons.1 (List.pairwise_cons.1 hsorted).2).2)

end

/-- Settles O23: the leaves in rank order have ties in id order, so both loops run alike to the tree BUILD leaves. -/
theorem buildAgreesWithStableSort : Obligations.BuildAgreesWithStableSort := by
  intro s hs hphase hn
  obtain ⟨hrun, hloop⟩ := hs.build_run hn
  have hties : TiesInIdOrder (s.placeLeaves s.nsym.toNat) (List.range s.nsym.toNat) := by
    refine List.pairwise_lt_range.imp ?_
    exact fun hlt _ => hlt
  exact ⟨_, exec_build_of_collect hphase, (hrun.sortedMergeLoop_eq hs.nsym_le (.refl _) hties).trans hloop⟩

/-! ## Arenas that agree on the nodes made so far -/

/-- The arenas hold the same nodes below id `n`. -/
def AgreeBelow (n : Nat) (nodes nodes' : Arena) : Prop := ∀ id < n, nodeAt nodes id = nodeAt nodes' id

section
variable {s : State} {nodes nodes' : Arena} {w : List Nat} {merges next n a b k : Nat}

theorem AgreeBelow.mono (h : AgreeBelow n nodes nodes') (hk : k ≤ n) : AgreeBelow k nodes nodes' :=
  fun id hid => h id (hid.trans_le hk)

theorem agreeBelow_setNode (nodes : Arena) (next : Nat) (v : Node) : AgreeBelow next nodes (setNode nodes next v) :=
  fun _ hid => (nodeAt_setNode_ne nodes v hid.ne).symm

theorem AgreeBelow.nodeKey (h : AgreeBelow n nodes nodes') {id : Nat} (hid : id < n) :
    nodeKey nodes id = nodeKey nodes' id := nodeKey_congr (h id hid)

theorem AgreeBelow.parentsIn (h : AgreeBelow n nodes nodes') (id : Nat) :
    parentsIn nodes n id = parentsIn nodes' n id :=
  List.filter_congr fun p hp => by rw [hasChild, hasChild, h p (List.mem_range.1 hp)]

/-- The selection reads the waiting nodes only. -/
theorem AgreeBelow.leastKey (h : AgreeBelow n nodes nodes') (hw : ∀ x ∈ w, x < n)
    (ha : leastKey nodes w = some a) : leastKey nodes' w = some a := by
  have hmem := leastKey_mem ha
  refine leastKey_eq hmem fun x hx => ?_
  rw [← h.nodeKey (hw a hmem), ← h.nodeKey (hw x hx)]
  exact leastKey_le ha x hx

/-- Two arenas that agree so far agree on the next merged node (R135). -/
theorem AgreeBelow.merge (h : AgreeBelow next nodes nodes') (hnext : next < 511) (ha : a < next) (hb : b < next) :
    AgreeBelow (next + 1) (setNode nodes next (mergedNode nodes a b)) (setNode nodes' next (mergedNode nodes' a b)) := by
  intro id hid
  by_cases heq : id = next
  · subst heq
    rw [nodeAt_setNode_same _ _ hnext, nodeAt_setNode_same _ _ hnext, mergedNode, mergedNode, h a ha, h b hb]
  · rw [nodeAt_setNode_ne _ _ heq, nodeAt_setNode_ne _ _ heq]
    exact h id (by omega)

/-! ## Least keys when a node is created (R132, R134, R135) -/

/-- Node `x` waits when node `k` is created: it is older, and no older INTERNAL node is its parent (R132). -/
def WaitsAt (nodes : Arena) (k x : Nat) : Prop := x < k ∧ parentsIn nodes k x = []

theorem State.waiting_iff (s : State) (k x : Nat) : s.waiting k x ↔ WaitsAt s.node k x := by
  refine and_congr_right fun _ => ?_
  simp only [List.eq_nil_iff_forall_not_mem, mem_parentsIn, not_and, not_or]

theorem AgreeBelow.waitsAt_iff (h : AgreeBelow k nodes nodes') (x : Nat) : WaitsAt nodes k x ↔ WaitsAt nodes' k x := by
  rw [WaitsAt, WaitsAt, h.parentsIn]

/-- The working set of BUILD's loop is the nodes that wait (R132). -/
theorem MergeInv.mem_iff_waitsAt (h : MergeInv s nodes w next) (x : Nat) : x ∈ w ↔ WaitsAt nodes next x := by
  constructor
  · intro hx
    have hlt := h.waiting_lt x hx
    exact ⟨hlt, List.length_eq_zero_iff.1 ((h.parents x hlt).trans (if_pos hx))⟩
  · rintro ⟨hlt, hnone⟩
    by_contra hx
    have hone := h.parents x hlt
    rw [hnone, if_neg hx] at hone
    cases hone

/-- Nodes `a` and `b` have the two least keys of those that wait for node `k`, `a` the least (R135). -/
structure LeastTwo (nodes : Arena) (k a b : Nat) : Prop where
  first_waits : WaitsAt nodes k a
  second_waits : WaitsAt nodes k b
  first_lt : nodeKey nodes a < nodeKey nodes b
  second_lt : ∀ x, WaitsAt nodes k x → x ≠ a → x ≠ b → nodeKey nodes b < nodeKey nodes x

/-- Which nodes wait for node `k`, and their keys, is about the nodes below `k` only. -/
theorem AgreeBelow.leastTwo (h : AgreeBelow k nodes nodes') (hl : LeastTwo nodes k a b) : LeastTwo nodes' k a b := by
  obtain ⟨hfirst, hsecond, hlt, hrest⟩ := hl
  refine ⟨(h.waitsAt_iff a).1 hfirst, (h.waitsAt_iff b).1 hsecond, ?_, fun x hx hxa hxb => ?_⟩
  · rwa [← h.nodeKey hfirst.1, ← h.nodeKey hsecond.1]
  · rw [← h.nodeKey hsecond.1, ← h.nodeKey hx.1]
    exact hrest x ((h.waitsAt_iff x).2 hx) hxa hxb

/-- BUILD's two selections have the two least keys of the waiting nodes (R134, R135). -/
theorem MergeInv.leastTwo (h : MergeInv s nodes w next) (ha : leastKey nodes w = some a)
    (hb : leastKey nodes (w.erase a) = some b) : LeastTwo nodes next a b := by
  have hbw := leastKey_mem hb
  obtain ⟨hba, hbmem⟩ := h.nodup.mem_erase_iff.1 hbw
  refine ⟨(h.mem_iff_waitsAt a).1 (leastKey_mem ha), (h.mem_iff_waitsAt b).1 hbmem,
    nodeKey_lt_of_le (leastKey_le ha b hbmem) hba.symm, fun x hx hxa hxb => ?_⟩
  have hxw : x ∈ w.erase a := h.nodup.mem_erase_iff.2 ⟨hxa, (h.mem_iff_waitsAt x).2 hx⟩
  exact nodeKey_lt_of_le (leastKey_le hb x hxw) hxb.symm

/-- The children of node `k` have the two least keys of the nodes that waited for it (R135). -/
def ChildrenLeast (nodes : Arena) (k : Nat) : Prop :=
  LeastTwo nodes k (nodeAt nodes k).left.toNat (nodeAt nodes k).right.toNat

theorem AgreeBelow.childrenLeast (h : AgreeBelow n nodes nodes') (hk : k < n) (hl : ChildrenLeast nodes k) :
    ChildrenLeast nodes' k := by
  rw [ChildrenLeast, ← h k hk]
  exact (h.mono hk.le).leastTwo hl

/-- The node a merge makes has the two selected nodes as its children. -/
theorem ChildrenLeast.merged (hnext : next < 511) (h : LeastTwo nodes next a b) :
    ChildrenLeast (setNode nodes next (mergedNode nodes a b)) next := by
  have ha := h.first_waits.1
  have hb := h.second_waits.1
  rw [ChildrenLeast, nodeAt_setNode_same _ _ hnext, mergedNode_left _ _ (by omega), mergedNode_right _ _ (by omega)]
  exact (agreeBelow_setNode nodes next _).leastTwo h

/-- Every node BUILD's loop makes has least children, since every one already made has (R135). -/
theorem MergeRun.childrenLeast (h : MergeRun s merges nodes w next) (hn : s.nsym.toNat ≤ 256)
    (hold : ∀ k < next, s.nsym.toNat ≤ k → ChildrenLeast nodes k) :
    ∀ k < 2 * s.nsym.toNat - 1, s.nsym.toNat ≤ k → ChildrenLeast (mergeLoop merges nodes w next).1 k := by
  induction h with
  | done hinv =>
    obtain ⟨-, hnext⟩ := hinv.eq_root le_rfl
    rw [mergeLoop_singleton, ← hnext]
    exact hold
  | @merge merges nodes w next a b hinv ha hb hrun ih =>
    obtain ⟨-, -, hnext, -⟩ := hinv.pair hn (leastKey_perm ha hb)
    rw [mergeLoop_of_leastKey ha hb]
    refine ih fun k hk hge => ?_
    by_cases heq : k = next
    · subst heq
      exact .merged hnext (hinv.leastTwo ha hb)
    · exact (agreeBelow_setNode nodes next _).childrenLeast (by omega) (hold k (by omega) hge)

/-! ## BUILD reads FT alone (R140) -/

/-- BUILD's loop makes the same nodes whatever the arena held at the ids not made yet. -/
theorem MergeRun.agree (h : MergeRun s merges nodes w next) (hn : s.nsym.toNat ≤ 256)
    (hagree : AgreeBelow next nodes nodes') :
    AgreeBelow (2 * s.nsym.toNat - 1) (mergeLoop merges nodes w next).1 (mergeLoop merges nodes' w next).1 := by
  induction h generalizing nodes' with
  | done hinv =>
    obtain ⟨-, hnext⟩ := hinv.eq_root le_rfl
    rw [mergeLoop_singleton, mergeLoop_singleton, ← hnext]
    exact hagree
  | @merge merges nodes w next a b hinv ha hb hrun ih =>
    obtain ⟨⟨halt, hblt, -⟩, -, hnext, -⟩ := hinv.pair hn (leastKey_perm ha hb)
    have ha' := hagree.leastKey hinv.waiting_lt ha
    have hb' := hagree.leastKey (fun x hx => hinv.waiting_lt x (List.mem_of_mem_erase hx)) hb
    rw [mergeLoop_of_leastKey ha hb, mergeLoop_of_leastKey ha' hb']
    exact ih (hagree.merge hnext halt hblt)

/-- Code generation reads the nodes below an INTERNAL one only, whose ids are smaller (R150, R133). -/
theorem AgreeBelow.codesFrom (h : AgreeBelow n nodes nodes')
    (hchild : ∀ id < n, (nodeAt nodes id).kind = .internal →
      (nodeAt nodes id).left.toNat < id ∧ (nodeAt nodes id).right.toNat < id)
    (levels : Nat) {id : Nat} (hid : id < n) (path : List Bool) :
    codesFrom nodes levels id path = codesFrom nodes' levels id path := by
  induction levels generalizing id path with
  | zero => rfl
  | succ levels ih =>
    rw [Machine.codesFrom, Machine.codesFrom, ← h id hid]
    cases hkind : (nodeAt nodes id).kind with
    | internal =>
      obtain ⟨hleft, hright⟩ := hchild id hid hkind
      exact congrArg₂ (· ++ ·) (ih (hleft.trans hid) _) (ih (hright.trans hid) _)
    | _ => rfl

end

/-- Settles O22: each INTERNAL node was made by a merge of BUILD's loop, and the nodes waiting then are told from the
final tree, whose older nodes are those of the time. -/
theorem buildSelectsLeastKeys : Obligations.BuildSelectsLeastKeys := by
  intro s hs hphase hn
  obtain ⟨hrun, hloop⟩ := hs.build_run hn
  obtain ⟨hnnodes, -⟩ := (hs.built_shape hphase).many hn
  refine ⟨_, exec_build_of_collect hphase, fun k hge hk => ?_⟩
  have hleast := hrun.childrenLeast hs.nsym_le (fun k hk hge => absurd hge (by omega)) k (hnnodes ▸ hk) hge
  rw [hloop] at hleast
  obtain ⟨hfirst, hsecond, hlt, hrest⟩ := hleast
  simp only [State.waiting_iff, State.keyBefore_iff]
  exact ⟨hfirst, hsecond, hlt, hrest⟩

section
variable {s u : State}

theorem State.leafOfRank_congr (hft : s.ft = u.ft) : s.leafOfRank = u.leafOfRank := by
  funext r
  simp only [State.leafOfRank, State.symOfRank, State.present, State.ftAt, hft]

/-- NSYM is a function of FT (R42). -/
theorem State.FreqInv.nsym_congr (hs : s.FreqInv) (hu : u.FreqInv) (hft : s.ft = u.ft) : s.nsym = u.nsym := by
  refine BitVec.eq_of_toNat_eq ?_
  rw [hs.nsym_eq, hu.nsym_eq, State.presentSyms, State.presentSyms]
  congr 2
  funext sym
  rw [State.present, State.present, State.ftAt, State.ftAt, hft]

/-- The trees of one table have as many nodes and the same root (R45, R140). -/
theorem State.TreeShape.size_congr (hs : s.TreeShape) (hu : u.TreeShape) (hn : s.nsym = u.nsym)
    (hcases : s.nsym = 1 ∨ 2 ≤ s.nsym.toNat) : s.nnodes = u.nnodes ∧ s.root = u.root := by
  rcases hcases with hone | hmany
  · obtain ⟨hsn, hsr, -⟩ := hs.one hone
    obtain ⟨hun, hur, -⟩ := hu.one (hn ▸ hone)
    exact ⟨hsn.trans hun.symm, hsr.trans hur.symm⟩
  · obtain ⟨hsn, hsr⟩ := hs.many hmany
    obtain ⟨hun, hur⟩ := hu.many (hn ▸ hmany)
    rw [← hn] at hun hur
    exact ⟨BitVec.eq_of_toNat_eq (hsn.trans hun.symm), BitVec.eq_of_toNat_eq (hsr.trans hur.symm)⟩

/-- The one-symbol tree is made from the table alone (R136, R140). -/
theorem State.oneSymbolTree_agree (hft : s.ft = u.ft) :
    AgreeBelow 3 s.oneSymbolTree.nodes u.oneSymbolTree.nodes := by
  have hleaf := congrFun (State.leafOfRank_congr hft) 0
  intro id hid
  obtain rfl | rfl | rfl : id = 0 ∨ id = 1 ∨ id = 2 := by omega
  · rw [s.oneSymbolTree_leaf, u.oneSymbolTree_leaf, hleaf]
  · rw [s.oneSymbolTree_void, u.oneSymbolTree_void]
  · rw [s.oneSymbolTree_root, u.oneSymbolTree_root, hleaf]

/-- BUILD's tree is made from the table alone: the leaves and each merge are (R140). -/
theorem State.FreqInv.afterBuild_agree (hs : s.FreqInv) (hu : u.FreqInv) (hphase : s.phase = .collect)
    (hft : s.ft = u.ft) : AgreeBelow s.afterBuild.nnodes.toNat s.afterBuild.node u.afterBuild.node := by
  have hn := hs.nsym_congr hu hft
  rcases hs.nsym_cases (by rw [hphase]; decide) with hone | hmany
  · have hst : s.builtTree = s.oneSymbolTree := if_pos hone
    have hut : u.builtTree = u.oneSymbolTree := if_pos (hn ▸ hone)
    change AgreeBelow s.builtTree.nnodes.toNat s.builtTree.nodes u.builtTree.nodes
    rw [hst, hut]
    exact State.oneSymbolTree_agree hft
  · obtain ⟨hrun, hloop⟩ := hs.build_run hmany
    obtain ⟨-, hloop'⟩ := hu.build_run (hn ▸ hmany)
    obtain ⟨hnnodes, -⟩ := (hs.built_shape hphase).many hmany
    have hle : s.nsym.toNat ≤ 511 := hs.nsym_le.trans (by decide)
    have hleaves : AgreeBelow s.nsym.toNat (s.placeLeaves s.nsym.toNat) (u.placeLeaves s.nsym.toNat) :=
      fun r hr => by
        rw [s.nodeAt_placeLeaves hle hr, u.nodeAt_placeLeaves hle hr, State.leafOfRank_congr hft]
    have hagree := hrun.agree hs.nsym_le hleaves
    rw [← hn] at hloop'
    rw [hloop, hloop'] at hagree
    exact hnnodes ▸ hagree

end

/-- Settles O24: from one table BUILD makes the same nodes, and the code table is that of the nodes in use. -/
theorem buildDependsOnFtAlone : Obligations.BuildDependsOnFtAlone := by
  intro s u hs hu hphase hphase' hft
  have hne : s.phase ≠ .empty := by rw [hphase]; decide
  have hshape := hs.built_shape hphase
  have hn : s.nsym = u.nsym := hs.nsym_congr hu hft
  obtain ⟨hnnodes, hroot⟩ := hshape.size_congr (hu.built_shape hphase') hn (hs.nsym_cases hne)
  have hagree := hs.afterBuild_agree hu hphase hft
  have hlt := hshape.root_lt (hs.afterBuild hphase) nofun
  have hcodes := hagree.codesFrom
    (fun id hid hkind => ⟨(hshape.children id hid hkind).1, (hshape.children id hid hkind).2.1⟩) maxLevels hlt []
  have hct : s.afterBuild.ct = u.afterBuild.ct := by
    change generateCodes s.afterBuild.node s.afterBuild.root = generateCodes u.afterBuild.node u.afterBuild.root
    rw [generateCodes, generateCodes, hcodes, hroot]
  exact ⟨_, _, exec_build_of_collect hphase, exec_build_of_collect hphase', hnnodes, hroot, hct, hagree⟩

end Sys2Proof.Machine

/-! # Scope: the code table after BUILD (R150-R153): the paths of the leaves, of which none is a prefix of another;
and QUERY (R154-R156), which reports the frequency entry and the code of one symbol -/

namespace Sys2Proof.Machine

/-! ## The code table BUILD leaves (R150, R152, R153) -/

/-- Settles O26: the codes are the paths of the tree BUILD's body leaves, and its completion writes the status only. -/
theorem buildCodesArePaths : Obligations.BuildCodesArePaths := fun s hs hphase =>
  ⟨_, exec_build_of_collect hphase, (State.SameTables.succeed s.afterBuild).codePaths (hs.built_codes hphase)⟩

/-- No path goes on from a leaf. -/
theorem follow_of_leaf {nodes : Arena} {id x : Nat} {q : List Bool} (hkind : (nodeAt nodes id).kind = .leaf)
    (h : follow nodes id q = some x) : x = id := by
  cases q with
  | nil => exact (Option.some.inj h).symm
  | cons b q =>
    rw [follow, hkind] at h
    cases h

/-- The leaves of different present symbols are different nodes (R44). -/
theorem State.TreeShape.eq_of_rank {s : State} (ht : s.TreeShape) {x y : Sym} (hx : s.present x = true)
    (hy : s.present y = true) (h : (s.ftAt x).rank.toNat = (s.ftAt y).rank.toNat) : x = y :=
  congrArg Node.sym ((ht.leaf x hx).symm.trans (h ▸ ht.leaf y hy))

/-- A code that begins with another symbol's code would go on from that symbol's leaf (R152). -/
theorem State.CodePaths.eq_of_prefix {s : State} (hc : s.CodePaths) (ht : s.TreeShape) {x y : Sym}
    (hx : s.present x = true) (hy : s.present y = true) (h : (s.ctAt x).cbits <+: (s.ctAt y).cbits) : x = y := by
  obtain ⟨q, hq⟩ := h
  have hpath := hc.path y hy
  rw [← hq, follow_append, hc.path x hx, Option.bind_some] at hpath
  have hleaf : (nodeAt s.node (s.ftAt x).rank.toNat).kind = .leaf := congrArg Node.kind (ht.leaf x hx)
  exact ht.eq_of_rank hx hy (follow_of_leaf hleaf hpath).symm

/-- Settles O27: BUILD leaves a tree of R45 with its paths as the codes, and such codes are prefix-free. -/
theorem buildCodesArePrefixFree : Obligations.BuildCodesArePrefixFree := fun s hs hphase =>
  have hsame := State.SameTables.succeed s.afterBuild
  have hshape := hsame.treeShape (hs.built_shape hphase)
  have hcodes := hsame.codePaths (hs.built_codes hphase)
  ⟨_, exec_build_of_collect hphase, fun _ _ hx hy hne hprefix => hne (hcodes.eq_of_prefix hshape hx hy hprefix)⟩

/-! ## QUERY (R154-R156) -/

/-- Bit `j` of a code word, counted from the most significant position, is bit `32k + j` of the code, 0 past its end
(R154). -/
theorem codeWord_getLsbD (bits : List Bool) (k : Nat) {j : Nat} (hj : j < 32) :
    (codeWord bits k).getLsbD (31 - j) = bits.getD (32 * k + j) false := by
  have hbit := packMsb_testBit 32 (bits.drop (32 * k)) j hj
  rw [codeWord, BitVec.getLsbD_ofNat, decide_eq_true (by omega : 31 - j < 32), Bool.true_and]
  simpa [List.getD_eq_getElem?_getD] using hbit

section
variable (s : State) (sym : Sym)

theorem State.present_iff_count : s.present sym = true ↔ (s.ftAt sym).count ≠ 0 := bne_iff_ne

theorem State.shownCode_eq : s.shownCode sym =
    if s.phase = .built ∧ (s.ftAt sym).count ≠ 0 then s.ctAt sym else CodeEntry.absent := by
  simp only [State.shownCode, State.present_iff_count]

theorem State.shownCode_clen : (s.shownCode sym).clen =
    if s.phase = .built ∧ (s.ftAt sym).count ≠ 0 then (s.ctAt sym).clen else 0 := by
  rw [State.shownCode_eq, apply_ite CodeEntry.clen]
  rfl

theorem State.shownCode_bit (j : Nat) : (s.shownCode sym).cbits.getD j false =
    if s.phase = .built ∧ (s.ftAt sym).count ≠ 0 then (s.ctAt sym).cbits.getD j false else false := by
  rw [State.shownCode_eq, apply_ite CodeEntry.cbits, apply_ite (List.getD · j false)]
  rfl

/-! The fields of RES1 (R156). -/

theorem queryRes1_sym : (queryRes1 s sym).extractLsb' 24 8 = sym := by
  rw [queryRes1, BitVec.extractLsb'_append_eq_of_le (by decide), BitVec.extractLsb'_append_eq_of_le (by decide),
    BitVec.extractLsb'_append_eq_of_le (by decide)]
  exact BitVec.extractLsb'_append_eq_left

theorem queryRes1_rank : (queryRes1 s sym).extractLsb' 16 8 =
    if (s.ftAt sym).count = 0 then 0 else (s.ftAt sym).rank := by
  rw [queryRes1, BitVec.extractLsb'_append_eq_of_le (by decide), BitVec.extractLsb'_append_eq_of_le (by decide),
    BitVec.extractLsb'_append_eq_of_le (by decide)]
  refine BitVec.extractLsb'_append_eq_right.trans ?_
  simp only [State.present_iff_count, ite_not]

theorem queryRes1_reserved : (queryRes1 s sym).extractLsb' 9 7 = 0 := by
  rw [queryRes1, BitVec.extractLsb'_append_eq_of_le (by decide), BitVec.extractLsb'_append_eq_of_le (by decide)]
  exact BitVec.extractLsb'_append_eq_right

theorem queryRes1_present : (queryRes1 s sym).getLsbD 8 = true ↔ (s.ftAt sym).count ≠ 0 := by
  rw [← State.present_iff_count, queryRes1, BitVec.getLsbD_append, BitVec.getLsbD_append]
  simp [flagBit]

theorem queryRes1_clen : (queryRes1 s sym).extractLsb' 0 8 =
    if s.phase = .built ∧ (s.ftAt sym).count ≠ 0 then (s.ctAt sym).clen else 0 := by
  rw [← State.shownCode_clen]
  exact BitVec.extractLsb'_append_eq_right

/-- QUERY's body puts code word `k` in RES(2 + k) (R154). -/
theorem queryBody_codeWord {u : State} (h : queryBody sym s = .ok u) {k : Nat} (hk : k < 8) :
    u.resAt (2 + k) = codeWord (s.shownCode sym).cbits k := by
  cases h
  interval_cases k <;> rfl

end

/-- Settles O28: QUERY passes the phase check in every phase, and the words its body writes hold these fields. -/
theorem queryReportsEntryAndCode : Obligations.QueryReportsEntryAndCode := by
  intro s sym
  obtain ⟨u, hu⟩ : ∃ u, queryBody sym s = .ok u := ⟨_, rfl⟩
  have hexec : exec (.query sym) s = .next u.succeed := runCommand_of_ok (i := .query sym) rfl hu
  have hcode : ∀ j < 256, (u.resAt (2 + j / 32)).getLsbD (31 - j % 32) =
      if s.phase = .built ∧ (s.ftAt sym).count ≠ 0 then (s.ctAt sym).cbits.getD j false else false := by
    intro j hj
    rw [queryBody_codeWord s sym hu (by omega), codeWord_getLsbD _ _ (Nat.mod_lt j (by decide)), Nat.div_add_mod,
      State.shownCode_bit]
  cases hu
  exact ⟨_, hexec, ⟨rfl, rfl, rfl, rfl⟩, rfl, queryRes1_sym s sym, queryRes1_rank s sym, queryRes1_reserved s sym,
    queryRes1_present s sym, queryRes1_clen s sym, hcode⟩

end Sys2Proof.Machine

/-! # Scope: ENCODE (R160-R163): the bitstream it leaves in OBUF in either format; and the length pre-checks of ENCODE
and DECODE (R160, R170, R176) -/

namespace Sys2Proof.Machine

/-! ## What a successful ENCODE leaves in OBUF (R160) -/

/-- A written bitstream leaves the bytes past its end as they were (R160). -/
theorem State.writeStream_obufByte_of_le (s : State) {fmt : Fmt} {bits : List Bool} {a : Nat}
    (h : (formatBytes fmt bits).length ≤ a) : (s.writeStream fmt bits).obufByte a = s.obufByte a := by
  simp only [State.obufByte, State.writeStream_obuf, State.writeStream_obufDraw, Memory.lookup_writeBytes]
  rw [if_neg (by omega)]

/-- The result of an ENCODE of bytes that all have a code and whose codes fit, in either format (R160): OBUF holds the
code stream's bytes, counted by OUT_LEN and OUT_BITS, and is as before past them. -/
theorem exec_encode_stored {fmt : Fmt} {s : State} {data : List Byte} (hlegal : s.params.legal = true)
    (hphase : s.phase = .built) (hin : s.ibufHolds data) (hlen : data.length = s.len.toNat)
    (hfit : s.len.toNat ≤ s.params.ibufSize) (hp : ∀ b ∈ data, s.present b = true)
    (hc : (s.codeStream data).length ≤ s.outputBitCapacity fmt) :
    ∃ t, exec (.encode fmt) s = .next t ∧ t.succeededFrom s ∧ t.outBits.toNat = (s.codeStream data).length ∧
      t.outLen.toNat = (formatBytes fmt (s.codeStream data)).length ∧
      t.obufHolds (formatBytes fmt (s.codeStream data)) ∧
      ∀ a, t.outLen.toNat ≤ a → t.obufByte a = s.obufByte a := by
  have hlt := hc.trans_lt (State.outputBitCapacity_lt hlegal fmt)
  have houtLen := s.writeStream_outLen_toNat fmt hlt
  exact ⟨_, exec_encode_ok hphase hin hlen hfit hp hc, ⟨rfl, rfl, rfl, rfl⟩, s.writeStream_outBits_toNat fmt hlt,
    houtLen, State.obufHolds_of_writeBytes rfl, fun _ ha => s.writeStream_obufByte_of_le (houtLen.symm.trans_le ha)⟩

/-! ## The bits of the two formats (R162, R163) -/

/-- Where OBUF holds a PACKED bitstream, bit `7 − (k mod 8)` of byte `k div 8` is the stream's bit `k`, 0 past its end
(R162). -/
theorem State.obufByte_bit_of_packed {t : State} {bits : List Bool} (h : t.obufHolds (formatBytes .packed bits))
    {k : Nat} (hk : k < 8 * ceilDiv8 bits.length) :
    (t.obufByte (k / 8)).getLsbD (7 - k % 8) = bits.getD k false := by
  have hbyte : k / 8 < (packBytes (ceilDiv8 bits.length) bits).length := by rw [packBytes_length]; omega
  have hbit := packBytes_bit (ceilDiv8 bits.length) bits (k / 8) (k % 8) (by omega) (by omega)
  rw [List.getElem?_eq_getElem hbyte, Option.getD_some, Nat.div_add_mod] at hbit
  rw [h _ hbyte]
  exact hbit

/-- Settles O29: ENCODE leaves the packed code stream in OBUF, whose bits are the stream's and, past its end, 0. -/
theorem encodePackedResult : Obligations.EncodePackedResult := by
  intro s data hlegal hphase hin hlen hfit hp hc
  obtain ⟨t, hexec, hok, hbits, houtLen, hholds, hrest⟩ :=
    exec_encode_stored (fmt := .packed) hlegal hphase hin hlen hfit hp hc
  have hbytes : t.outLen.toNat = ceilDiv8 (s.codeStream data).length := houtLen.trans (packBytes_length _ _)
  refine ⟨t, hexec, hok, hbits, hbytes, fun k hk => ?_, fun k hk hpad => ?_, hrest⟩
  · have hstored : k < 8 * ceilDiv8 (s.codeStream data).length := by rw [ceilDiv8]; omega
    rw [State.obufByte_bit_of_packed hholds hstored, List.getD_eq_getElem _ _ hk]
  · rw [State.obufByte_bit_of_packed hholds (hbytes ▸ hpad), List.getD_eq_default _ _ hk]

/-- Settles O30: ENCODE leaves the code stream in OBUF in its ASCII form, one byte for each bit. -/
theorem encodeAsciiResult : Obligations.EncodeAsciiResult := by
  intro s data hlegal hphase hin hlen hfit hp hc
  obtain ⟨t, hexec, hok, hbits, houtLen, hholds, hrest⟩ :=
    exec_encode_stored (fmt := .ascii) hlegal hphase hin hlen hfit hp hc
  refine ⟨t, hexec, hok, hbits, houtLen.trans (asciiBytes_length _), fun k hk => ?_, hrest⟩
  exact (hholds k ((asciiBytes_length _).symm ▸ hk)).trans (List.getElem_map _)

/-! ## An input longer than IBUF (R160, R170, R176, R208) -/

theorem encodeBody_of_too_long {s : State} (fmt : Fmt) (h : s.params.ibufSize < s.len.toNat) :
    encodeBody fmt s = .error ⟨.capacityError, noPosition⟩ := if_pos h

theorem decodeBody_of_too_long {fmt : Fmt} {s : State} (h : s.inputBitCapacity fmt < s.inputBits fmt) :
    decodeBody fmt s = .error ⟨.capacityError, noPosition⟩ := if_pos h

/-- ENCODE and DECODE pass the phase check once the tree is built (R108). -/
theorem phaseCheck_codec_built {i : Instr} (hi : i.isCodec = true) (w : Word) : phaseCheck i .built w = none := by
  cases i with
  | encode fmt => rfl
  | decode fmt => rfl
  | _ => cases hi

/-- A capacity error of the length pre-check is none of the input scan, so ENCODE and DECODE keep OBUF and clear OUT_LEN
and OUT_BITS (R104, R208). -/
theorem exec_codec_of_too_long {i : Instr} {s : State} (hi : i.isCodec = true) (hphase : s.phase = .built)
    (hbody : bodyOf i s = .error ⟨.capacityError, noPosition⟩) :
    exec i s = .next { s with outLen := 0, outBits := 0, errCode := .capacityError, errpos := 0xFFFFFFFF,
                              busy := false, done := true } := by
  rw [exec_eq_runCommand, runCommand_of_error (hphase ▸ phaseCheck_codec_built hi s.lcmd) hbody, hi]
  rfl

/-- Settles O32: the pre-check of either command raises the capacity error that carries no position. -/
theorem codecInputTooLong : Obligations.CodecInputTooLong := by
  refine fun s hphase => ⟨fun hlen => ⟨fun fmt => ?_, ?_⟩, fun hbitlen => ?_⟩
  · exact exec_codec_of_too_long rfl hphase (encodeBody_of_too_long fmt hlen)
  · exact exec_codec_of_too_long rfl hphase (decodeBody_of_too_long (fmt := .ascii) hlen)
  · exact exec_codec_of_too_long rfl hphase (decodeBody_of_too_long (fmt := .packed) hbitlen)

end Sys2Proof.Machine

/-! # Scope: DECODE (R170-R177): the symbols a code stream decodes to, and the errors of the input scan -/

namespace Sys2Proof.Machine

/-! ## A DECODE that succeeds (R172, R177) -/

/-- Settles O33: DECODE of a code stream succeeds with its symbols written to OBUF as one block from index 0. -/
theorem decodeInvertsCodes : Obligations.DecodeInvertsCodes := by
  intro fmt s data hinv hphase hp hr hn hcap hout
  obtain ⟨-, -, -, hsize⟩ := (Params.legal_iff _).1 hinv.params
  have hbits : (s.codeStream data).length < 2 ^ 32 := by
    rw [← hn]
    cases fmt <;> exact BitVec.isLt _
  have hsyms : data.length < 2 ^ 32 := by omega
  refine ⟨_, exec_decode_codeStream hinv hphase hp hr hn hcap hout, ⟨rfl, rfl, rfl, rfl⟩,
    Nat.mod_eq_of_lt hsyms, Nat.mod_eq_of_lt hbits, State.obufHolds_of_writeBytes rfl, fun a ha => ?_⟩
  change ((Memory.writeBytes s.obuf 0 data).lookup a).getD _ = _
  rw [Memory.lookup_writeBytes, if_neg (by omega)]
  rfl

/-! ## Reading one bit more -/

theorem State.readsBits_concat {s : State} {fmt : Fmt} {bits : List Bool} {b : Bool} :
    s.readsBits fmt (bits ++ [b]) ↔ s.readsBits fmt bits ∧ s.inputBit fmt bits.length = .ok b := by
  rw [← State.readsBitsFrom_zero, State.readsBitsFrom_append, State.readsBitsFrom_zero, Nat.zero_add,
    State.readsBitsFrom_cons]
  simp [State.readsBitsFrom]

/-! ## How one pass of DECODE's loop fails (R171, R175, R176) -/

theorem State.inputBit_malformed {s : State} {k : Nat} (h0 : s.ibufByte k ≠ 0x30) (h1 : s.ibufByte k ≠ 0x31) :
    s.inputBit .ascii k = .error ⟨.invalidBit, BitVec.ofNat 32 k⟩ := by
  rw [State.inputBit, if_neg h0, if_neg h1]

theorem State.walkBit_void {s : State} {w : Walk} {b : Bool} (k : Nat)
    (h : (nodeAt s.node (s.childOf w.cur b).toNat).kind = .void) :
    s.walkBit w k b = .error ⟨.invalidBit, BitVec.ofNat 32 k⟩ := by
  simp [State.walkBit, h]

theorem State.walkBit_full {s : State} {w : Walk} {b : Bool} (k : Nat)
    (h : (nodeAt s.node (s.childOf w.cur b).toNat).kind = .leaf) (hout : w.out = s.params.obufSize) :
    s.walkBit w k b = .error ⟨.capacityError, BitVec.ofNat 32 k⟩ := by
  simp [State.walkBit, h, hout]

theorem State.decodeScan_of_inputBit_error {s : State} {fmt : Fmt} {k : Nat} {w : Walk} {e : CmdError}
    (h : s.inputBit fmt k = .error e) (n : Nat) : s.decodeScan fmt (n + 1) k w = .error e := by
  rw [State.decodeScan, h]

theorem State.decodeScan_of_walkBit_error {s : State} {fmt : Fmt} {k : Nat} {w : Walk} {b : Bool} {e : CmdError}
    (hb : s.inputBit fmt k = .ok b) (hw : s.walkBit w k b = .error e) (n : Nat) :
    s.decodeScan fmt (n + 1) k w = .error e := by
  simp only [State.decodeScan, hb, hw]

/-! ## A DECODE that fails in the input scan (R104) -/

/-- DECODE ends with error `e` as the input scan's errors do (R104): OUT_LEN and OUT_BITS are 0 and OBUF is a fresh
draw. -/
def State.DecodeFails (s : State) (fmt : Fmt) (e : CmdError) : Prop :=
  ∃ t, exec (.decode fmt) s = .next t ∧ t.failedWith e.code e.info ∧
    t.outLen = 0 ∧ t.outBits = 0 ∧ ∀ a, t.obufByte a = Config.freeObuf s.draws a

theorem State.decodeFails_of_body {s : State} {fmt : Fmt} {e : CmdError} (hphase : s.phase = .built)
    (hscan : e.inScan = true) (hbody : decodeBody fmt s = .error e) : s.DecodeFails fmt e := by
  refine ⟨_, runCommand_of_error (hphase ▸ phaseCheck_codec_built (i := .decode fmt) rfl s.lcmd) hbody,
    ⟨rfl, rfl, rfl, rfl⟩, ?_⟩
  simp [Instr.isCodec, hscan]

/-- The walk inside a codeword, at node `cur`, after the codes of `data` (R170). -/
def State.walkInside (s : State) (data : List Byte) (cur : NodeId) : Walk :=
  { s.walkAt (s.codeStream data).length data.length (Memory.writeBytes s.obuf 0 data) with cur := cur }

section
variable {fmt : Fmt} {s : State} {data : List Byte} {c : List Bool} {cur : NodeId} (hinv : s.TablesInv)
  (hphase : s.phase = .built) (hp : ∀ b ∈ data, s.present b = true) (hout : data.length ≤ s.params.obufSize)
  (hpath : follow s.node s.root.toNat c = some cur.toNat) (hint : (nodeAt s.node cur.toNat).kind = .internal)
  (hr : s.readsBits fmt (s.codeStream data ++ c))
include hinv hphase hp hout hpath hint hr

/-- The codes of present symbols and the beginning `c` of a codeword bring the walk to the node at the end of `c`. -/
theorem State.decodeScan_inside (n : Nat) :
    s.decodeScan fmt ((s.codeStream data ++ c).length + n) 0 s.walkStart =
      s.decodeScan fmt n (s.codeStream data ++ c).length (s.walkInside data cur) := by
  obtain ⟨hrdata, hrc⟩ := State.readsBitsFrom_append.1 (State.readsBitsFrom_zero.2 hr)
  rw [List.length_append, Nat.add_assoc, show s.walkStart = s.walkAt 0 0 s.obuf from rfl,
    State.decodeScan_codeStream (hinv.tree hphase) (hinv.code hphase) hp hrdata (by omega),
    State.decodeScan_path hpath hint hrc, BitVec.ofNat_toNat, BitVec.setWidth_eq, Nat.zero_add, Nat.zero_add]
  rfl

/-- An error in the pass of the bit after `c` ends DECODE, whatever bits follow (R170, R210). -/
theorem State.decodeFails_after {e : CmdError} (hscan : e.inScan = true)
    (hlt : (s.codeStream data ++ c).length < s.inputBits fmt) (hcap : s.inputBits fmt ≤ s.inputBitCapacity fmt)
    (herr : ∀ n, s.decodeScan fmt (n + 1) (s.codeStream data ++ c).length (s.walkInside data cur) = .error e) :
    s.DecodeFails fmt e := by
  obtain ⟨n, hn⟩ := Nat.exists_eq_add_of_lt hlt
  have hwalk := State.decodeScan_inside hinv hphase hp hout hpath hint hr (n + 1)
  rw [← Nat.add_assoc, ← hn, herr] at hwalk
  refine State.decodeFails_of_body hphase hscan ?_
  rw [decodeBody, if_neg (by omega), hwalk]

/-- An input that ends after `c`, away from the root, is truncated (R174). -/
theorem State.decodeFails_truncated (hroot : cur ≠ s.root)
    (hn : s.inputBits fmt = (s.codeStream data ++ c).length) (hcap : s.inputBits fmt ≤ s.inputBitCapacity fmt) :
    s.DecodeFails fmt ⟨.truncatedStream, BitVec.ofNat 32 (s.codeStream data).length⟩ := by
  have hwalk := State.decodeScan_inside hinv hphase hp hout hpath hint hr 0
  refine State.decodeFails_of_body hphase rfl ?_
  rw [decodeBody, if_neg (by omega), hn, ← Nat.add_zero (List.length _), hwalk]
  exact if_pos hroot

end

/-! ## Paths go down -/

/-- Each bit of a path leads to a smaller id (R45). -/
theorem State.TreeShape.follow_add_length_le {s : State} (ht : s.TreeShape) {id x : Nat} {q : List Bool}
    (hid : id < s.nnodes.toNat) (hf : follow s.node id q = some x) : x + q.length ≤ id := by
  induction q generalizing id with
  | nil => cases hf; exact le_rfl
  | cons b q ih =>
    rw [follow] at hf
    split at hf
    · next hkind =>
      obtain ⟨hleft, hright, -⟩ := ht.children id hid hkind
      have hchild : (if b then (nodeAt s.node id).right.toNat else (nodeAt s.node id).left.toNat) < id := by
        cases b
        · exact hleft
        · exact hright
      have hle := ih (hchild.trans hid) hf
      rw [List.length_cons]
      omega
    · cases hf

/-- A path of at least one bit from the root does not lead back to it (R174). -/
theorem State.TreeShape.ne_root_of_follow {s : State} (ht : s.TreeShape) (hs : s.FreqInv) (hphase : s.phase ≠ .empty)
    {c : List Bool} {cur : NodeId} (hc : c ≠ []) (hf : follow s.node s.root.toNat c = some cur.toNat) :
    cur ≠ s.root := by
  rintro rfl
  have hle := ht.follow_add_length_le (ht.root_lt hs hphase) hf
  have hpos := List.length_pos_of_ne_nil hc
  omega

/-! ## The errors -/

/-- Settles O35: the walk stands at a node inside the codeword that `c` began, and no such node is the root. -/
theorem decodeReportsTruncation : Obligations.DecodeReportsTruncation := by
  intro fmt s data c id hinv hphase hp hout hc hpath hint hr hn hcap
  obtain ⟨cur, rfl⟩ := State.follow_nodeId hpath
  have hroot := (hinv.tree hphase).ne_root_of_follow hinv.freq (by simp [hphase]) hc hpath
  exact State.decodeFails_truncated hinv hphase hp hout hpath hint hr hroot hn hcap

/-- Settles O36: the malformed byte is the bit after `c`, and it is read before the tree step. -/
theorem decodeReportsMalformedToken : Obligations.DecodeReportsMalformedToken := by
  intro s data c id hinv hphase hp hout hpath hint hr hlt hcap h0 h1
  obtain ⟨cur, rfl⟩ := State.follow_nodeId hpath
  exact State.decodeFails_after hinv hphase hp hout hpath hint hr rfl hlt hcap
    (State.decodeScan_of_inputBit_error (State.inputBit_malformed h0 h1))

/-- Settles O38: all but the last bit of the symbol's code lead to the parent of its leaf, and the last bit finds OBUF
full. Its index is below 0xFFFFFFFF, so this capacity error is one of the input scan. -/
theorem decodeReportsOutputCapacity : Obligations.DecodeReportsOutputCapacity := by
  intro fmt s data b hinv hphase hp hfull hb hr hle hcap
  obtain ⟨p, bit, cur, hsplit, hpath, hint, hleaf, -⟩ := State.code_split (hinv.tree hphase) (hinv.code hphase) hb
  have hstream : s.codeStream (data ++ [b]) = s.codeStream data ++ p ++ [bit] := by
    simp [State.codeStream, hsplit]
  rw [hstream] at hr hle ⊢
  obtain ⟨hrp, hbit⟩ := State.readsBits_concat.1 hr
  rw [List.length_append, List.length_singleton] at hle ⊢
  have hindex : (s.codeStream data ++ p).length < 2 ^ 32 - 1 := by
    have hlegal := (Params.legal_iff _).1 hinv.params
    cases fmt <;> simp only [State.inputBitCapacity] at hcap <;> omega
  have hscan : CmdError.inScan ⟨.capacityError, BitVec.ofNat 32 (s.codeStream data ++ p).length⟩ = true := by
    refine (CmdError.inScan_iff _).2 (.inr (.inr (.inr ⟨rfl, fun h => ?_⟩)))
    have hnat := congrArg BitVec.toNat h
    rw [BitVec.toNat_ofNat, Nat.mod_eq_of_lt (by omega)] at hnat
    exact hindex.ne hnat
  exact State.decodeFails_after hinv hphase hp hfull.le hpath hint hrp hscan hle hcap
    (State.decodeScan_of_walkBit_error hbit (State.walkBit_full _ hleaf hfull))

/-! ## The one-symbol tree (R136, R175) -/

section
variable {s : State} (ht : s.TreeShape) (hn : s.nsym = 1)
include ht hn

/-- In the one-symbol tree a 1 bit at the root leads to VOID (R136). -/
theorem State.TreeShape.childOf_root_true_kind : (nodeAt s.node (s.childOf s.root true).toNat).kind = .void := by
  obtain ⟨-, hroot, hvoid, -, -, hright⟩ := ht.one hn
  rw [hroot]
  change (nodeAt s.node (nodeAt s.node 2).right.toNat).kind = .void
  rw [hright]
  exact congrArg Node.kind hvoid

/-- In the one-symbol tree the root is the only INTERNAL node that a path from the root leads to (R136). -/
theorem State.TreeShape.path_nil_of_nsym_one (hs : s.FreqInv) {p : List Bool} {id : Nat}
    (hpath : follow s.node s.root.toNat p = some id) (hint : (nodeAt s.node id).kind = .internal) : p = [] := by
  obtain ⟨hnnodes, hroot, hvoid, -⟩ := ht.one hn
  have hge := ht.nsym_le_of_internal hs hint
  have hle := ht.follow_add_length_le (by rw [hroot, hnnodes]; decide) hpath
  rw [hn] at hge
  rw [hroot] at hle
  change 1 ≤ id at hge
  change id + p.length ≤ 2 at hle
  have hne : id ≠ 1 := by
    rintro rfl
    rw [hvoid] at hint
    cases hint
  exact List.eq_nil_of_length_eq_zero (by omega)

/-- The code of the only symbol is the single bit 0 (R136). -/
theorem State.TreeShape.code_of_nsym_one (hs : s.FreqInv) (hc : s.CodePaths) {sym : Sym} (hp : s.present sym = true) :
    (s.ctAt sym).cbits = [false] := by
  obtain ⟨p, bit, cur, hsplit, hpath, hint, hleaf, -⟩ := State.code_split ht hc hp
  obtain rfl := ht.path_nil_of_nsym_one hn hs hpath hint
  obtain rfl : s.root = cur := BitVec.eq_of_toNat_eq (Option.some.inj hpath)
  cases bit with
  | false => exact hsplit
  | true =>
    rw [ht.childOf_root_true_kind hn] at hleaf
    cases hleaf

end

/-- Settles O37: `k` zeros are `k` codes of the only symbol, and the 1 bit after them leads from the root to VOID. -/
theorem decodeReportsVoidPath : Obligations.DecodeReportsVoidPath := by
  intro fmt s k hinv hphase hn hk hr hlt hcap
  have ht := hinv.tree hphase
  obtain ⟨-, hint, -⟩ := ht.root_bounds hinv.freq (by simp [hphase])
  obtain ⟨sym, hp, -⟩ := hinv.freq.rank_hit 0 (by rw [hn]; decide)
  have hcode := ht.code_of_nsym_one hn hinv.freq (hinv.code hphase) hp
  have hstream : s.codeStream (List.replicate k sym) ++ [] = List.replicate k false := by
    rw [List.append_nil, State.codeStream, List.flatMap_replicate, hcode, List.flatten_replicate_singleton]
  have hlen : (s.codeStream (List.replicate k sym) ++ []).length = k := by rw [hstream, List.length_replicate]
  rw [← hstream] at hr
  obtain ⟨hzeros, hone⟩ := State.readsBits_concat.1 hr
  have hfails := State.decodeFails_after hinv hphase (fun x hx => List.eq_of_mem_replicate hx ▸ hp) (by simpa using hk)
    (follow_nil _ _) hint hzeros rfl (hlen.trans_lt hlt) hcap
    (State.decodeScan_of_walkBit_error hone (State.walkBit_void _ (ht.childOf_root_true_kind hn)))
  rwa [hlen] at hfails

end Sys2Proof.Machine

/-! # Scope: the traversal (R185-R189): TRAV_START, TRAV_NEXT, and the sequence SEQ -/

namespace Sys2Proof.Machine

/-! ## TRAV_START (R186) -/

/-- Settles O39: TRAV_START passes the phase check in BUILT, and its body writes TPOS alone. -/
theorem travStartRestarts : Obligations.TravStartRestarts := by
  intro s hphase
  have hcheck : phaseCheck .travStart s.phase s.lcmd = none := by rw [hphase]; rfl
  have hbody : travStartBody s = .ok { s with tpos := 0 } := rfl
  exact runCommand_of_ok hcheck hbody

/-! ## TRAV_NEXT (R187, R188) -/

/-- TRAV_NEXT before the end of SEQ (R187). -/
theorem travNextBody_of_entry {s : State} {id d : Nat} (hlt : s.tpos < s.nnodes)
    (hentry : s.traversal[s.tpos.toNat]? = some (id, d)) :
    travNextBody s = .ok { s with
      res := travResults (nodeAt s.node id).freq (travRes1 (nodeAt s.node id) id d), tpos := s.tpos + 1 } := by
  have he : s.travEntry = (id, d) := by rw [State.travEntry, hentry, Option.getD_some]
  rw [travNextBody, if_pos hlt, he]

/-- TRAV_NEXT at the end of SEQ (R187). -/
theorem travNextBody_of_end {s : State} (hend : ¬ s.tpos < s.nnodes) :
    travNextBody s = .ok { s with res := travResults 0 travEnd } := if_neg hend

theorem exec_travNext_of_built {s u : State} (hphase : s.phase = .built) (h : travNextBody s = .ok u) :
    exec .travNext s = .next u.succeed := by
  have hcheck : phaseCheck .travNext s.phase s.lcmd = none := by rw [hphase]; rfl
  exact runCommand_of_ok hcheck h

/-- RES2 to RES9 are 0 (R187). -/
theorem travResults_rest (res0 res1 : Word) {k : Nat} (hk : 2 ≤ k) : (travResults res0 res1)[k]?.getD 0 = 0 := by
  by_cases hlt : k < 10
  · interval_cases k <;> rfl
  · rw [Vector.getElem?_eq_none (not_lt.1 hlt), Option.getD_none]

/-! The fields of RES1 (R188). -/

section
variable (n : Node) (id depth : Nat)

theorem travRes1_nodeId : (travRes1 n id depth).extractLsb' 0 9 = BitVec.ofNat 9 id :=
  BitVec.extractLsb'_append_eq_right

theorem travRes1_low_reserved : (travRes1 n id depth).extractLsb' 9 3 = 0 := by
  rw [travRes1, BitVec.extractLsb'_append_eq_of_le (by decide)]
  exact BitVec.extractLsb'_append_eq_right

theorem travRes1_kind : (travRes1 n id depth).extractLsb' 12 2 = n.kind.code := by
  rw [travRes1, BitVec.extractLsb'_append_eq_of_le (by decide), BitVec.extractLsb'_append_eq_of_le (by decide)]
  exact BitVec.extractLsb'_append_eq_right

/-- Bit 14 and END are 0 in an entry. -/
theorem travRes1_end : (travRes1 n id depth).extractLsb' 14 2 = 0 := by
  rw [travRes1, BitVec.extractLsb'_append_eq_of_le (by decide), BitVec.extractLsb'_append_eq_of_le (by decide),
    BitVec.extractLsb'_append_eq_of_le (by decide)]
  exact BitVec.extractLsb'_append_eq_right

theorem travRes1_sym : (travRes1 n id depth).extractLsb' 16 8 = if n.kind = .leaf then n.sym else 0 := by
  rw [travRes1, BitVec.extractLsb'_append_eq_of_le (by decide), BitVec.extractLsb'_append_eq_of_le (by decide),
    BitVec.extractLsb'_append_eq_of_le (by decide), BitVec.extractLsb'_append_eq_of_le (by decide)]
  exact BitVec.extractLsb'_append_eq_right

theorem travRes1_depth : (travRes1 n id depth).extractLsb' 24 8 = BitVec.ofNat 8 depth := by
  rw [travRes1, BitVec.extractLsb'_append_eq_of_le (by decide), BitVec.extractLsb'_append_eq_of_le (by decide),
    BitVec.extractLsb'_append_eq_of_le (by decide), BitVec.extractLsb'_append_eq_of_le (by decide)]
  exact BitVec.extractLsb'_append_eq_left

end

/-- Settles O40: below NNODES the words TRAV_NEXT writes hold the entry's fields; from NNODES on they are the end
marker. -/
theorem travNextReturnsEntryOrEnd : Obligations.TravNextReturnsEntryOrEnd := by
  intro s hphase
  refine ⟨fun id d hlt hentry => ?_, fun hend => ?_⟩
  · have hexec := exec_travNext_of_built hphase (travNextBody_of_entry hlt hentry)
    exact ⟨_, hexec, ⟨rfl, rfl, rfl, rfl⟩, rfl, rfl, travRes1_nodeId _ id d, travRes1_low_reserved _ id d,
      travRes1_kind _ id d, travRes1_end _ id d, travRes1_sym _ id d, travRes1_depth _ id d,
      fun _ hk => travResults_rest _ _ hk⟩
  · have hexec := exec_travNext_of_built hphase (travNextBody_of_end hend)
    exact ⟨_, hexec, ⟨rfl, rfl, rfl, rfl⟩, rfl, rfl, rfl, fun _ hk => travResults_rest _ _ hk⟩

/-! ## The sequence and the paths to its entries (R185) -/

/-- One level of `inorder` at an INTERNAL node (R185). -/
theorem inorderFrom_internal {nodes : Arena} {id : Nat} (hkind : (nodeAt nodes id).kind = .internal)
    (levels depth : Nat) :
    inorderFrom nodes (levels + 1) id depth =
      inorderFrom nodes levels (nodeAt nodes id).left.toNat (depth + 1) ++ (id, depth) ::
        inorderFrom nodes levels (nodeAt nodes id).right.toNat (depth + 1) := by
  rw [inorderFrom, hkind, List.append_assoc, List.singleton_append]

/-- One level of `inorder` at any other node (R185). -/
theorem inorderFrom_of_ne_internal {nodes : Arena} {id : Nat} (hkind : (nodeAt nodes id).kind ≠ .internal)
    (levels depth : Nat) : inorderFrom nodes (levels + 1) id depth = [(id, depth)] := by
  rw [inorderFrom]
  split
  · next h => exact absurd h hkind
  all_goals rfl

section
variable {nodes : Arena} {id x : Nat} {p : List Bool} (hkind : (nodeAt nodes id).kind = .internal)
include hkind

theorem follow_left : follow nodes id (false :: p) = follow nodes (nodeAt nodes id).left.toNat p := if_pos hkind

theorem follow_right : follow nodes id (true :: p) = follow nodes (nodeAt nodes id).right.toNat p := if_pos hkind

end

/-- Every entry of the sequence is the end of a path, and its depth counts the path's bits (R185). -/
theorem inorderFrom_sound {nodes : Arena} {levels id depth : Nat} {e : Nat × Nat}
    (he : e ∈ inorderFrom nodes levels id depth) :
    ∃ p, follow nodes id p = some e.1 ∧ e.2 = depth + p.length := by
  induction levels generalizing id depth with
  | zero => cases he
  | succ levels ih =>
    by_cases hkind : (nodeAt nodes id).kind = .internal
    · rw [inorderFrom_internal hkind, List.mem_append, List.mem_cons] at he
      rcases he with he | rfl | he
      · obtain ⟨p, hp, hd⟩ := ih he
        exact ⟨false :: p, (follow_left hkind).trans hp, by rw [hd, List.length_cons]; omega⟩
      · exact ⟨[], rfl, rfl⟩
      · obtain ⟨p, hp, hd⟩ := ih he
        exact ⟨true :: p, (follow_right hkind).trans hp, by rw [hd, List.length_cons]; omega⟩
    · rw [inorderFrom_of_ne_internal hkind, List.mem_singleton] at he
      subst he
      exact ⟨[], rfl, rfl⟩

/-- The end of every path shorter than the level bound is listed, at that depth (R185). -/
theorem inorderFrom_complete {nodes : Arena} {levels id depth x : Nat} {p : List Bool}
    (hf : follow nodes id p = some x) (hp : p.length < levels) :
    (x, depth + p.length) ∈ inorderFrom nodes levels id depth := by
  induction levels generalizing id depth p with
  | zero => omega
  | succ levels ih =>
    cases p with
    | nil =>
      obtain rfl : id = x := Option.some.inj hf
      by_cases hkind : (nodeAt nodes id).kind = .internal
      · simp [inorderFrom_internal hkind]
      · simp [inorderFrom_of_ne_internal hkind]
    | cons b p =>
      have hkind : (nodeAt nodes id).kind = .internal := by
        by_contra hne
        rw [follow, if_neg hne] at hf
        cases hf
      have hlen : p.length < levels := Nat.lt_of_succ_lt_succ hp
      rw [inorderFrom_internal hkind, List.length_cons, Nat.add_comm p.length, ← Nat.add_assoc, List.mem_append]
      cases b with
      | false => exact .inl (ih ((follow_left hkind).symm.trans hf) hlen)
      | true => exact .inr (.tail _ (ih ((follow_right hkind).symm.trans hf) hlen))

/-- Entry `a` comes before entry `b` in left-node-right order, by some paths from `id` to them (R185). -/
def EntryBefore (nodes : Arena) (id : Nat) (a b : Nat × Nat) : Prop :=
  ∃ p q, follow nodes id p = some a.1 ∧ follow nodes id q = some b.1 ∧ inOrderBefore p q

section
variable {nodes : Arena} {id : Nat} {a b : Nat × Nat} (hkind : (nodeAt nodes id).kind = .internal)
include hkind

theorem EntryBefore.left (h : EntryBefore nodes (nodeAt nodes id).left.toNat a b) : EntryBefore nodes id a b := by
  obtain ⟨p, q, hp, hq, hlt⟩ := h
  exact ⟨false :: p, false :: q, (follow_left hkind).trans hp, (follow_left hkind).trans hq, (if_pos rfl).mpr hlt⟩

theorem EntryBefore.right (h : EntryBefore nodes (nodeAt nodes id).right.toNat a b) : EntryBefore nodes id a b := by
  obtain ⟨p, q, hp, hq, hlt⟩ := h
  exact ⟨true :: p, true :: q, (follow_right hkind).trans hp, (follow_right hkind).trans hq, (if_pos rfl).mpr hlt⟩

end

/-- The sequence is in left-node-right order (R185). -/
theorem inorderFrom_pairwise (nodes : Arena) (levels id depth : Nat) :
    (inorderFrom nodes levels id depth).Pairwise (EntryBefore nodes id) := by
  induction levels generalizing id depth with
  | zero => exact .nil
  | succ levels ih =>
    by_cases hkind : (nodeAt nodes id).kind = .internal
    · rw [inorderFrom_internal hkind, List.pairwise_append, List.pairwise_cons]
      refine ⟨(ih _ _).imp (EntryBefore.left hkind), ⟨fun b hb => ?_, (ih _ _).imp (EntryBefore.right hkind)⟩,
        fun a ha b hb => ?_⟩
      · obtain ⟨q, hq, -⟩ := inorderFrom_sound hb
        exact ⟨[], true :: q, rfl, (follow_right hkind).trans hq, rfl⟩
      · obtain ⟨p, hp, -⟩ := inorderFrom_sound ha
        rcases List.mem_cons.1 hb with rfl | hb
        · exact ⟨false :: p, [], (follow_left hkind).trans hp, rfl, rfl⟩
        · obtain ⟨q, hq, -⟩ := inorderFrom_sound hb
          exact ⟨false :: p, true :: q, (follow_left hkind).trans hp, (follow_right hkind).trans hq, rfl⟩
    · rw [inorderFrom_of_ne_internal hkind]
      exact List.pairwise_singleton _ _

theorem not_inOrderBefore_self (p : List Bool) : ¬ inOrderBefore p p := by
  induction p with
  | nil => exact id
  | cons b p ih => exact fun h => ih ((if_pos rfl).mp h)

/-! ## One path to each node (R45) -/

/-- A path of one bit leaves an INTERNAL node by its child on that side. -/
theorem follow_singleton {nodes : Arena} {id x : Nat} {b : Bool} :
    follow nodes id [b] = some x ↔ (nodeAt nodes id).kind = .internal ∧
      (if b then (nodeAt nodes id).right.toNat else (nodeAt nodes id).left.toNat) = x := by
  by_cases hkind : (nodeAt nodes id).kind = .internal <;> simp [follow, hkind]

section
variable {s : State}

/-- The node that one bit leads from is a parent of the node it leads to (R45). -/
theorem State.mem_parentsOf_of_follow {x y : Nat} {b : Bool} (hy : y < s.nnodes.toNat)
    (h : follow s.node y [b] = some x) : y ∈ s.parentsOf x := by
  obtain ⟨hkind, hchild⟩ := follow_singleton.1 h
  refine mem_parentsIn.2 ⟨hy, hkind, ?_⟩
  cases b with
  | false => exact .inl hchild
  | true => exact .inr hchild

variable (ht : s.TreeShape)
include ht

/-- The two children of an INTERNAL node differ, so a node is a child of it on one side only (R45). -/
theorem State.TreeShape.side_unique {x y : Nat} {b c : Bool} (hy : y < s.nnodes.toNat)
    (hb : follow s.node y [b] = some x) (hc : follow s.node y [c] = some x) : b = c := by
  obtain ⟨hkind, hbx⟩ := follow_singleton.1 hb
  obtain ⟨-, hcx⟩ := follow_singleton.1 hc
  obtain ⟨-, -, hne, -⟩ := ht.children y hy hkind
  rw [ne_eq, ← BitVec.toNat_inj] at hne
  cases b <;> cases c
  · rfl
  · exact absurd (hbx.trans hcx.symm) hne
  · exact absurd (hcx.trans hbx.symm) hne
  · rfl

/-- A node in use other than the root is a child of one node only (R45). -/
theorem State.TreeShape.parent_unique {x y z : Nat} {b c : Bool} (hx : x < s.nnodes.toNat) (hroot : x ≠ s.root.toNat)
    (hy : y < s.nnodes.toNat) (hz : z < s.nnodes.toNat) (hb : follow s.node y [b] = some x)
    (hc : follow s.node z [c] = some x) : y = z := by
  obtain ⟨w, hone⟩ := List.length_eq_one_iff.1 (ht.oneParent x hx hroot)
  have hyw := State.mem_parentsOf_of_follow hy hb
  have hzw := State.mem_parentsOf_of_follow hz hc
  rw [hone, List.mem_singleton] at hyw hzw
  exact hyw.trans hzw.symm

variable (hs : s.FreqInv) (hphase : s.phase ≠ .empty)
include hs hphase

/-- Only the empty path leads from the root back to it (R45). -/
theorem State.TreeShape.path_to_root {p : List Bool} (h : follow s.node s.root.toNat p = some s.root.toNat) :
    p = [] := by
  have hle := ht.follow_add_length_le (ht.root_lt hs hphase) h
  exact List.eq_nil_of_length_eq_zero (by omega)

/-- At most one path leads from the root to a node (R45). -/
theorem State.TreeShape.path_unique {x : Nat} {p q : List Bool} (hp : follow s.node s.root.toNat p = some x)
    (hq : follow s.node s.root.toNat q = some x) : p = q := by
  have hbound {y : Nat} {r : List Bool} (h : follow s.node s.root.toNat r = some y) : y < s.nnodes.toNat :=
    (ht.follow_bounds hs (ht.root_lt hs hphase) h).1
  induction p using List.reverseRecOn generalizing x q with
  | nil =>
    cases hp
    exact (ht.path_to_root hs hphase hq).symm
  | append_singleton p b ih =>
    have hroot : x ≠ s.root.toNat := by
      rintro rfl
      simpa using ht.path_to_root hs hphase hp
    rcases List.eq_nil_or_concat' q with rfl | ⟨q, c, rfl⟩
    · exact absurd (Option.some.inj hq).symm hroot
    · have hx := hbound hp
      rw [follow_append, Option.bind_eq_some_iff] at hp hq
      obtain ⟨y, hpy, hyx⟩ := hp
      obtain ⟨z, hqz, hzx⟩ := hq
      obtain rfl := ht.parent_unique hx hroot (hbound hpy) (hbound hqz) hyx hzx
      rw [ih hpy hqz, ht.side_unique (hbound hpy) hyx hzx]

/-- A path from the root has at most 255 bits (R137). -/
theorem State.TreeShape.path_length_le {x : Nat} {p : List Bool} (h : follow s.node s.root.toNat p = some x) :
    p.length ≤ 255 := by
  obtain ⟨-, -, hroot⟩ := ht.root_bounds hs hphase
  obtain ⟨-, hlen⟩ := ht.follow_bounds hs (ht.root_lt hs hphase) h
  omega

/-! ## SEQ of a built tree (R185) -/

/-- SEQ lists exactly the nodes in use. -/
theorem State.TreeShape.mem_traversal_ids {id : Nat} :
    id ∈ s.traversal.map Prod.fst ↔ id < s.nnodes.toNat := by
  rw [List.mem_map]
  constructor
  · rintro ⟨e, he, rfl⟩
    obtain ⟨p, hp, -⟩ := inorderFrom_sound he
    exact (ht.follow_bounds hs (ht.root_lt hs hphase) hp).1
  · intro hid
    obtain ⟨p, hp⟩ := ht.reached hid
    have hlen := ht.path_length_le hs hphase hp
    exact ⟨_, inorderFrom_complete hp (by rw [maxLevels]; omega), rfl⟩

/-- SEQ lists no node twice: an earlier entry's path differs from a later one's, and a node has one path. -/
theorem State.TreeShape.traversal_ids_nodup : (s.traversal.map Prod.fst).Nodup := by
  refine List.pairwise_map.2 ((inorderFrom_pairwise s.node maxLevels s.root.toNat 0).imp ?_)
  rintro a b ⟨p, q, hp, hq, hlt⟩ hab
  rw [← hab] at hq
  rw [ht.path_unique hs hphase hp hq] at hlt
  exact not_inOrderBefore_self q hlt

end

/-- Settles O41: SEQ lists the ends of the root's paths in order, each node in use is the end of exactly one, and no
path reaches the level bound. -/
theorem traversalListsEveryNodeInOrder : Obligations.TraversalListsEveryNodeInOrder := by
  intro s hs hbuilt ht
  have hphase : s.phase ≠ .empty := by simp [hbuilt]
  refine ⟨?_, fun e he => ?_, inorderFrom_pairwise s.node maxLevels s.root.toNat 0⟩
  · rw [List.perm_ext_iff_of_nodup (ht.traversal_ids_nodup hs hphase) List.nodup_range]
    exact fun id => (ht.mem_traversal_ids hs hphase).trans List.mem_range.symm
  · obtain ⟨p, hp, hdepth⟩ := inorderFrom_sound he
    rw [Nat.zero_add] at hdepth
    exact ⟨p, hp, hdepth.symm, hdepth.trans_le (ht.path_length_le hs hphase hp)⟩

end Sys2Proof.Machine

/-! # Scope: the errors of the phase check and of an illegal word (R201, R202, R206, R207), ENCODE's errors of the input
scan (R203, R164), the hazards of a step (R234, R237, R238), reads while a command runs (R239), and reset (R230-R233) -/

namespace Sys2Proof.Machine

/-! ## ENCODE's errors of the input scan (R160, R203) -/

section
variable {s : State} {cap i used : Nat}

/-- ENCODE's scan passes over present symbols whose codes fit, so the first error is that of the bytes after them. -/
theorem State.encodeScan_append_of_error {pre data : List Byte} {e : CmdError} (hp : ∀ x ∈ pre, s.present x = true)
    (hc : used + (s.codeStream pre).length ≤ cap)
    (herr : s.encodeScan cap (i + pre.length) (used + (s.codeStream pre).length) data = .error e) :
    s.encodeScan cap i used (pre ++ data) = .error e := by
  induction pre generalizing i used with
  | nil => exact herr
  | cons x pre ih =>
    simp only [State.codeStream_cons, List.length_append, List.length_cons, ← CodeEntry.length.eq_1] at hc herr
    have hrest : s.encodeScan cap (i + 1) (used + (s.ctAt x).length) (pre ++ data) = .error e :=
      ih (fun y hy => hp y (.tail _ hy)) (by omega) (by rwa [Nat.add_right_comm, Nat.add_assoc, Nat.add_assoc])
    rw [List.cons_append, State.encodeScan, if_neg (by simp [hp x (.head _)]), if_neg (by omega), hrest]

theorem State.encodeScan_of_absent {b : Byte} (hb : s.present b = false) (rest : List Byte) :
    s.encodeScan cap i used (b :: rest) = .error ⟨.unknownSymbol, BitVec.ofNat 32 i⟩ := by
  rw [State.encodeScan, if_pos hb]

theorem State.encodeScan_of_full {b : Byte} (hb : s.present b = true) (hfull : cap < used + (s.ctAt b).length)
    (rest : List Byte) : s.encodeScan cap i used (b :: rest) = .error ⟨.capacityError, BitVec.ofNat 32 i⟩ := by
  rw [State.encodeScan, if_neg (by simp [hb]), if_pos hfull]

end

/-- ENCODE ends with error `e` as the input scan's errors do (R104): OUT_LEN and OUT_BITS are 0 and OBUF is a fresh
draw. -/
def State.EncodeFails (s : State) (fmt : Fmt) (e : CmdError) : Prop :=
  ∃ t, exec (.encode fmt) s = .next t ∧ t.failedWith e.code e.info ∧
    t.outLen = 0 ∧ t.outBits = 0 ∧ ∀ a, t.obufByte a = Config.freeObuf s.draws a

theorem State.encodeFails_of_scan {fmt : Fmt} {s : State} {e : CmdError} (hphase : s.phase = .built)
    (hfit : s.len.toNat ≤ s.params.ibufSize) (hscan : e.inScan = true)
    (herr : s.encodeScan (s.outputBitCapacity fmt) 0 0 s.inputBytes = .error e) : s.EncodeFails fmt e := by
  have hbody : encodeBody fmt s = .error e := by rw [encodeBody, if_neg (not_lt.2 hfit), herr]
  refine ⟨_, runCommand_of_error (hphase ▸ phaseCheck_codec_built (i := .encode fmt) rfl s.lcmd) hbody,
    ⟨rfl, rfl, rfl, rfl⟩, ?_⟩
  simp [Instr.isCodec, hscan]

/-- A capacity error at an input index is one of the input scan: no index is 0xFFFFFFFF (R104). -/
theorem capacityError_inScan {k : Nat} (hk : k < 2 ^ 32 - 1) :
    CmdError.inScan ⟨.capacityError, BitVec.ofNat 32 k⟩ = true := by
  refine (CmdError.inScan_iff _).2 (.inr (.inr (.inr ⟨rfl, ?_⟩)))
  rw [noPosition]
  bv_omega

/-- Settles O31: the scan passes over the bytes before `b` and stops at it, UNKNOWN_SYMBOL being checked first. -/
theorem encodeReportsFirstError : Obligations.EncodeReportsFirstError := by
  intro fmt s pre b rest hlegal hphase hin hlen hfit hp hc
  have hfails : ∀ e : CmdError, e.inScan = true →
      s.encodeScan (s.outputBitCapacity fmt) pre.length (s.codeStream pre).length (b :: rest) = .error e →
      s.EncodeFails fmt e := by
    intro e hscan herr
    refine State.encodeFails_of_scan hphase hfit hscan ?_
    rw [State.inputBytes_eq hin hlen]
    exact State.encodeScan_append_of_error hp (by omega) (by simpa using herr)
  have hindex : pre.length < 2 ^ 32 - 1 := by
    have hsize := (Params.legal_iff _).1 hlegal
    rw [List.length_append, List.length_cons] at hlen
    omega
  refine ⟨fun hb => hfails ⟨.unknownSymbol, _⟩ rfl (State.encodeScan_of_absent hb rest), fun hb hfull => ?_⟩
  have hcode : (s.codeStream (pre ++ [b])).length = (s.codeStream pre).length + (s.ctAt b).length := by
    simp [State.codeStream, CodeEntry.length]
  exact hfails ⟨.capacityError, _⟩ (capacityError_inScan hindex) (State.encodeScan_of_full hb (hcode ▸ hfull) rest)

/-! ## A word that spells no command (R206) -/

theorem engineTurn_illegal {s : State} {r : IllegalWord} (hb : s.busy = true) (hd : decodeWord s.lcmd = .error r) :
    engineTurn s = .next (s.raiseError false ⟨.illegalCommand, s.lcmd⟩) := by
  simp [engineTurn, engineRun, hb, hd, illegalCommand]

/-- Settles O6: the engine's turn raises ILLEGAL_COMMAND, and the error entry of no codec writes the status only. -/
theorem illegalWordCompletesWithIllegalCommand : Obligations.IllegalWordCompletesWithIllegalCommand := by
  intro s r he hb hd
  exact ⟨_, (step_eq_engineTurn he).trans (engineTurn_illegal (s := s.takeEvent) hb hd), rfl,
    State.statusWord_errCode _⟩

/-! ## The errors of the phase check (R108) -/

theorem exec_of_check {i : Instr} {s : State} {e : CmdError} (h : phaseCheck i s.phase s.lcmd = some e) :
    exec i s = .next (s.raiseError i.isCodec e) := by
  rw [exec_eq_runCommand, runCommand_of_check h]

/-- The commands that need a tree (R207). -/
def needsTree : Instr → Bool
  | .encode _ | .decode _ | .travStart | .travNext => true
  | .nop | .clear | .count | .build | .query _ => false

theorem phaseCheck_of_no_tree {i : Instr} {p : Phase} (hi : needsTree i = true) (hp : p ≠ .built) (w : Word) :
    phaseCheck i p w = some ⟨.sequenceError, w⟩ := by
  cases p with
  | built => exact absurd rfl hp
  | empty | collect =>
    cases i with
    | encode | decode | travStart | travNext => rfl
    | _ => cases hi

/-- Settles O10: the phase check raises SEQUENCE_ERROR, which is no error of the input scan. -/
theorem sequenceErrorWithoutTree : Obligations.SequenceErrorWithoutTree := by
  refine ⟨rfl, fun s hphase => ?_⟩
  have hexec : ∀ i : Instr, needsTree i = true →
      exec i s = .next (s.raiseError i.isCodec ⟨.sequenceError, s.lcmd⟩) :=
    fun i hi => exec_of_check (phaseCheck_of_no_tree hi hphase _)
  exact ⟨fun fmt => hexec (.encode fmt) rfl, fun fmt => hexec (.decode fmt) rfl, hexec .travStart rfl,
    hexec .travNext rfl⟩

/-- Settles O11: the phase check of either command raises BUILD_ERROR in phase BUILT. -/
theorem buildErrorOnceBuilt : Obligations.BuildErrorOnceBuilt :=
  ⟨rfl, fun _ hphase => ⟨exec_of_check (i := .count) (by rw [hphase]; rfl),
    exec_of_check (i := .build) (by rw [hphase]; rfl)⟩⟩

/-- Settles O12: the phase check of BUILD raises EMPTY_INPUT in phase EMPTY, and the error entry keeps the phase. -/
theorem emptyInputAtBuild : Obligations.EmptyInputAtBuild :=
  ⟨rfl, fun _ hphase => ⟨_, exec_of_check (i := .build) (by rw [hphase]; rfl), hphase, rfl⟩⟩

/-! ## The hazards of a host access (R237, R238) -/

/-- LEN and BITLEN stand at 0x014 and 0x018 (R22). -/
theorem Reg.atOffset_operand_iff (off : Nat) :
    Reg.atOffset off = some .len ∨ Reg.atOffset off = some .bitlen ↔ off = 0x014 ∨ off = 0x018 := by
  unfold Reg.atOffset
  split
  case h_13 => split <;> simp_all
  all_goals simp

section
variable (s : State)

theorem State.writeReg_hazard_iff (off : Nat) (w : Word) :
    s.writeReg off w = .fault .hostHazard ↔ s.busy = true ∧ (off = 0x014 ∨ off = 0x018) := by
  rw [← Reg.atOffset_operand_iff]
  unfold State.writeReg
  split <;> simp [*]

theorem State.writeIbuf_hazard_iff (i : Nat) (bytes : List Byte) :
    s.writeIbuf i bytes = .fault .hostHazard ↔ s.busy = true ∧ i < s.params.ibufSize := by
  simp [State.writeIbuf]

theorem hostAccess_hazard_iff (a : BusAccess) :
    hostAccess a s = .fault .hostHazard ↔ s.busy = true ∧ BusAccess.writesOperand s.params a = true := by
  by_cases hlegal : a.legal = true
  case neg => simp [hostAccess_illegal hlegal, BusAccess.writesOperand, hlegal]
  cases hwe : a.we with
  | false => simp [hostAccess_read hlegal hwe, BusAccess.writesOperand, hwe]
  | true =>
    rw [hostAccess_write hlegal hwe, State.busWrite]
    cases hregion : a.region with
    | registers => simp [State.writeReg_hazard_iff, BusAccess.writesOperand, hlegal, hwe, hregion]
    | ibufWindow => simp [State.writeIbuf_hazard_iff, BusAccess.writesOperand, hlegal, hwe, hregion]
    | obufWindow | reserved => simp [BusAccess.writesOperand, hregion]

end

/-! ## The hazards of a step (R234, R237, R238) -/

/-- A host access is answered unless it is a hazard. -/
theorem hostAccess_next_or_hazard (a : BusAccess) (s : State) :
    ((s.busy && BusAccess.writesOperand s.params a) = false ∧ ∃ t, hostAccess a s = .next t) ∨
      ((s.busy && BusAccess.writesOperand s.params a) = true ∧ hostAccess a s = .fault .hostHazard) := by
  have hiff := hostAccess_hazard_iff s a
  rw [← Bool.and_eq_true] at hiff
  rcases hostAccess_outcome a s with ⟨t, ht⟩ | ⟨-, hfault⟩
  · exact .inl ⟨by simpa [ht] using hiff, t, ht⟩
  · exact .inr ⟨hiff.1 hfault, hfault⟩

/-- An access in the cycle of completion stops only where the access itself would: the completion never does (R27). -/
theorem accessThenComplete_next_or_hazard (a : BusAccess) (s : State) :
    ((s.busy && BusAccess.writesOperand s.params a) = false ∧ ∃ t, accessThenComplete a s = .next t) ∨
      ((s.busy && BusAccess.writesOperand s.params a) = true ∧ accessThenComplete a s = .fault .hostHazard) := by
  unfold accessThenComplete
  rcases hostAccess_next_or_hazard a s with ⟨hsafe, t, ht⟩ | ⟨hhazard, hfault⟩
  · rw [ht]
    split
    · exact .inl ⟨hsafe, engineTurn_next t⟩
    · exact .inl ⟨hsafe, t, rfl⟩
  · exact .inr ⟨hhazard, by simp [hfault]⟩

/-- What one host event answers: a next state, or the fault of the hazard that it is. -/
theorem hostEvent_outcome (e : HostEvent) (s : State) :
    (e.hazard s = false ∧ ∃ t, hostEvent e s = .next t) ∨
    (e.hazard s = true ∧ (∃ a, e = .resetDuring a) ∧ hostEvent e s = .fault .resetOverlap) ∨
    (e.hazard s = true ∧ (∃ a, e = .access a ∨ e = .accessAtCompletion a) ∧ hostEvent e s = .fault .hostHazard) := by
  cases e with
  | access a => exact (hostAccess_next_or_hazard a s).imp_right fun ⟨h, hfault⟩ => .inr ⟨h, ⟨a, .inl rfl⟩, hfault⟩
  | complete => exact .inl ⟨rfl, engineTurn_next s⟩
  | accessAtCompletion a =>
    exact (accessThenComplete_next_or_hazard a s).imp_right fun ⟨h, hfault⟩ => .inr ⟨h, ⟨a, .inr rfl⟩, hfault⟩
  | reset => exact .inl ⟨rfl, _, rfl⟩
  | resetDuring a => exact .inr (.inl ⟨rfl, ⟨a, rfl⟩, rfl⟩)

theorem HostEvent.hazard_takeEvent (e : HostEvent) (s : State) : e.hazard s.takeEvent = e.hazard s := by
  cases e <;> rfl

/-- Settles O9: with no event left the step is the engine's turn, which never stops; else it answers as its event
does. -/
theorem stepStopsExactlyOnHazards : Obligations.StepStopsExactlyOnHazards := by
  intro s
  cases hes : s.events with
  | nil =>
    obtain ⟨t, ht⟩ := engineTurn_next s.takeEvent
    rw [← step_eq_engineTurn (.inl hes)] at ht
    simp [ht, State.safe, hes]
  | cons e es =>
    have hsafe : s.safe = !e.hazard s := by rw [State.safe, hes]
    have hstep := hostEvent_outcome e s.takeEvent
    rw [← step_of_event (by rw [hes]; rfl), HostEvent.hazard_takeEvent] at hstep
    rcases hstep with ⟨hno, t, ht⟩ | ⟨hyes, ⟨a, rfl⟩, hfault⟩ | ⟨hyes, ⟨a, ha⟩, hfault⟩
    · cases e with
      | complete | reset => simp [ht, hsafe, hno]
      | access a | accessAtCompletion a =>
        have hop : s.busy = true → BusAccess.writesOperand s.params a = false := by simpa [HostEvent.hazard] using hno
        simpa [ht, hsafe, hno] using hop
      | resetDuring a => cases hno
    · simp [hfault, hsafe, hyes]
    · have hop : s.busy = true ∧ BusAccess.writesOperand s.params a = true := by
        rcases ha with rfl | rfl <;> exact Bool.and_eq_true_iff.1 hyes
      rcases ha with rfl | rfl <;> simp [hfault, hsafe, hyes, hop]

/-! ## Reads while a command runs (R239) -/

/-- A read of a register that R239 names, while a command runs, takes a draw. -/
theorem State.readReg_drawn {s : State} {off : Nat} {r : Reg} (hb : s.busy = true) (h : Reg.atOffset off = some r)
    (hr : r.unstable = true) :
    s.readReg off = { s.answerRead (Config.freeReadData s.draws) with draws := s.draws + 1 } := by
  simp [State.readReg, h, hb, hr]

/-- A read of any other register returns its value at any time. -/
theorem State.readReg_current {s : State} {off : Nat} {r : Reg} (h : Reg.atOffset off = some r)
    (hr : r.unstable = false) : s.readReg off = s.answerRead (s.regValue r) := by
  simp [State.readReg, h, hr]

/-- The bytes a read of OBUF at `i` returns while a command runs: those of draw `d` where OBUF has the address, else 0
(R60, R239). -/
def drawnByte (size d i j : Nat) : Byte := if j < size then busByte (Config.freeReadData d) (j - i) else 0

theorem State.readObuf_drawn {s : State} {i n : Nat} (hb : s.busy = true) (hi : i < s.params.obufSize) :
    s.readObuf i n =
      { s.answerRead (assemble (windowBytes (drawnByte s.params.obufSize s.draws i) i n)) with
        draws := s.draws + 1 } := by
  simp [State.readObuf, hb, hi, drawnByte.eq_unfold]

theorem littleEndian_windowBytes_zero {byteAt : Nat → Byte} {i : Nat} (h : ∀ j, i ≤ j → byteAt j = 0) (n : Nat) :
    littleEndian (windowBytes byteAt i n) = 0 := by
  induction n generalizing i with
  | zero => rfl
  | succ n ih =>
    rw [windowBytes, littleEndian, h i le_rfl, ih fun j hj => h j (by omega)]
    rfl

/-- A read past OBUF's end returns 0 at any time and takes no draw (R60). -/
theorem State.readObuf_empty {s : State} {i : Nat} (hi : s.params.obufSize ≤ i) (n : Nat) :
    s.readObuf i n = s.answerRead 0 := by
  have hzero : littleEndian (windowBytes s.obufWindowByte i n) = 0 :=
    littleEndian_windowBytes_zero (fun j hj => if_neg (by omega)) n
  rw [State.readObuf, if_neg (by simp [hi]), assemble, hzero]
  rfl

/-- Two words with the same four bytes are the same (R64). -/
theorem word_eq_of_bytes {w v : Word} (h : ∀ j < 4, w.extractLsb' (8 * j) 8 = v.extractLsb' (8 * j) 8) : w = v := by
  ext k hk
  have hbit := congrArg (BitVec.getLsbD · (k % 8)) (h (k / 8) (by omega))
  simpa [Nat.mod_lt, Nat.div_add_mod, BitVec.getLsbD_eq_getElem hk] using hbit

section
variable {a : BusAccess} {s : State} (hlegal : a.legal = true) (hwe : a.we = false) (hregion : a.region = .obufWindow)
include hlegal hwe hregion

theorem hostAccess_readObuf : hostAccess a s = .next (s.readObuf a.offset a.bytes) := by
  rw [hostAccess_read hlegal hwe, State.busRead, hregion]

/-- A read of OBUF while a command runs, of any size (R60, R64, R239). -/
theorem hostAccess_readObuf_drawn (hb : s.busy = true) (hin : a.offset < s.params.obufSize) :
    ∃ w, hostAccess a s = .next { s with answer := some (.ackRead w), draws := s.draws + 1 } ∧
      (∀ j < a.bytes, w.extractLsb' (8 * j) 8 =
        if a.offset + j < s.params.obufSize then (Config.freeReadData s.draws).extractLsb' (8 * j) 8 else 0) ∧
      ∀ j < 32, 8 * a.bytes ≤ j → w.getLsbD j = false := by
  obtain ⟨hbytes, hhigh⟩ :=
    assemble_windowBytes (drawnByte s.params.obufSize s.draws a.offset) a.offset (BusAccess.bytes_le_four hlegal)
  refine ⟨_, ?_, fun j hj => ?_, hhigh⟩
  · rw [hostAccess_readObuf hlegal hwe hregion, State.readObuf_drawn hb hin]
    rfl
  · rw [hbytes j hj, drawnByte, Nat.add_sub_cancel_left, busByte]

end

/-- A word access at a word-aligned index of the OBUF window is legal and goes to that index (R60-R62). -/
theorem obufAccess_legal {i : Nat} (hi : i < 0x10000) (halign : i % 4 = 0) (we : Bool) (w : Word) :
    BusAccess.legal ⟨we, 2, BitVec.ofNat 18 (0x20000 + i), w⟩ = true ∧
      BusAccess.region ⟨we, 2, BitVec.ofNat 18 (0x20000 + i), w⟩ = .obufWindow ∧
      BusAccess.offset ⟨we, 2, BitVec.ofNat 18 (0x20000 + i), w⟩ = i := by
  have haddr : (BitVec.ofNat 18 (0x20000 + i)).toNat = 0x20000 + i := Nat.mod_eq_of_lt (by omega)
  have hregion : (0x20000 + i) / 0x10000 = 2 := by omega
  have hword : (0x20000 + i) % 4 = 0 := by omega
  refine ⟨?_, by simp only [BusAccess.region, haddr, hregion], by rw [BusAccess.offset, haddr]; omega⟩
  simp [BusAccess.legal, BusAccess.sizeLegal, BusAccess.aligned, BusAccess.bytes, BusAccess.widthAllowed, haddr, hword]

/-- Settles O54: the registers R239 names take a draw and the others do not; an OBUF read assembles the draw's bytes,
and a word inside OBUF has all four of them. -/
theorem busyReadsAreFreeOrCurrent : Obligations.BusyReadsAreFreeOrCurrent := by
  intro s hb reads drawn current
  have hdrawn : ∀ {off r}, off < 0x10000 → off % 4 = 0 → Reg.atOffset off = some r → r.unstable = true →
      reads off = .next drawn := by
    intro off r hoff halign hreg hr
    exact (hostAccess_readReg hoff halign 0 s).trans (congrArg _ (State.readReg_drawn hb hreg hr))
  have hcurrent : ∀ {off r v}, off < 0x10000 → off % 4 = 0 → Reg.atOffset off = some r → r.unstable = false →
      s.regValue r = v → reads off = .next (current v) := by
    rintro off r _ hoff halign hreg hr rfl
    exact (hostAccess_readReg hoff halign 0 s).trans (congrArg _ (State.readReg_current hreg hr))
  refine ⟨fun off hoff => ?_, fun k hk => hdrawn (by omega) (by omega) (Reg.atOffset_res hk) rfl,
    fun i halign hin hi => ?_,
    fun a hlegal hwe hregion => ⟨hostAccess_readObuf_drawn hlegal hwe hregion hb, fun hout => ?_⟩,
    hcurrent (by decide) rfl rfl rfl rfl, hcurrent (by decide) rfl rfl rfl rfl, hcurrent (by decide) rfl rfl rfl rfl,
    hcurrent (by decide) rfl rfl rfl rfl, hcurrent (by decide) rfl rfl rfl rfl, hcurrent (by decide) rfl rfl rfl rfl⟩
  · fin_cases hoff <;> exact hdrawn (by decide) rfl rfl rfl
  · obtain ⟨hlegal, hregion, hoffset⟩ := obufAccess_legal hi halign false 0
    obtain ⟨w, hread, hbytes, -⟩ := hostAccess_readObuf_drawn hlegal rfl hregion hb (by omega)
    have hw : w = Config.freeReadData s.draws :=
      word_eq_of_bytes fun j hj => (hbytes j hj).trans (if_pos (by omega))
    rw [hw] at hread
    exact hread
  · rw [hostAccess_readObuf hlegal hwe hregion, State.readObuf_empty hout]
    rfl

/-! ## Reset (R230-R233) -/

theorem wordIsCodec_iff (w : Word) :
    wordIsCodec w = true ↔ ∃ fmt, decodeWord w = .ok (.encode fmt) ∨ decodeWord w = .ok (.decode fmt) := by
  unfold wordIsCodec
  split
  case h_1 i h => cases i <;> simp [h, Instr.isCodec]
  case h_2 h => simp [h]

/-- Reset keeps OBUF unless it abandons an ENCODE or DECODE: then OBUF is a fresh draw (R232, R233). -/
theorem State.hardReset_obufByte (s : State) (a : Nat) : s.hardReset.obufByte a =
    if s.busy && wordIsCodec s.lcmd then Config.freeObuf s.draws a else s.obufByte a := by
  change s.abandonCodec.obufByte a = _
  rw [State.abandonCodec]
  split <;> rfl

theorem State.hardReset_ibuf (s : State) : s.hardReset.ibuf = s.ibuf := by
  change s.abandonCodec.ibuf = _
  rw [State.abandonCodec]
  split <;> rfl

theorem State.hardReset_statusWord (s : State) : s.hardReset.statusWord = 0 := by
  simp [State.statusWord, State.hardReset, flagBit, Phase.code, ErrCode.code]

/-- Settles O55: reset writes each register's reset value and keeps IBUF, and OBUF depends on the latched word. -/
theorem hardReset : Obligations.HardReset := by
  intro s he
  refine ⟨s.takeEvent.hardReset, step_of_event he, State.hardReset_statusWord _, rfl, rfl, rfl, rfl, rfl, rfl, rfl, rfl,
    rfl, rfl, rfl, rfl, rfl, rfl, State.resAt_of_zero rfl, rfl, State.ftAt_of_absent rfl,
    State.ibufByte_congr (s := s) s.takeEvent.hardReset_ibuf, fun hkept a => ?_, fun hcodec a => ?_⟩
  · rw [State.hardReset_obufByte, if_neg]
    · rfl
    · simpa [wordIsCodec_iff, or_iff_not_imp_left] using hkept
  · rw [State.hardReset_obufByte, if_pos]
    · rfl
    · simpa [wordIsCodec_iff] using hcodec

end Sys2Proof.Machine
